-- ==== Sys2Proof/Word.lean ====
section
/-! DEFINITION. The widths of 00_scope.md R8 and R12, and the narrowing of an exact integer to a register. -/

namespace Sys2Proof

/-- A 32-bit register or pattern (`bits32`). Read as a `sint32` by `BitVec.toInt`, the spec's `sval`
(00_scope.md R12; XLEN = 32 by R8). Two's complement is the spec's general-knowledge entry U18 (PRESUMED, log entry 7). -/
abbrev Word := BitVec 32

/-- One glyph, a `bits7` (30_encoding.md R82). -/
abbrev Glyph := BitVec 7

/-- A command code `cmd[1:0]` (30_encoding.md R70). -/
abbrev CmdCode := BitVec 2

/-- A digit 0..9, the only index of the glyph ROM (20_memory.md R56). -/
abbrev Digit := Fin 10

/-- An exact integer as a register value. 00_scope.md R12: arithmetic is on unbounded integers, and 40_decode.md R108
shows that every value written fits, so this narrowing never loses anything (log entry 7). -/
def sint (n : Int) : Word := BitVec.ofInt 32 n

end Sys2Proof
end

