-- ==== Sys2Proof/Syntax.lean ====
section
/-! DEFINITION. The four operations of spec/opcode_table.json (30_encoding.md R71) and what HOST presents on the command
and operand ports (R70, R72). -/

namespace Sys2Proof

/-- The operations of CORE (30_encoding.md R71). ENCODE carries its four operands, presented by value with the command
(R72); the others carry none. -/
inductive Instr where
  /-- IDLE, `cmd = 00` (42_update.md R157). -/
  | idle
  /-- DECODE, `cmd = 01` (40_decode.md R100). -/
  | decode
  /-- ENCODE, `cmd = 10` (41_encode.md R120), with op_hours, op_minutes, op_seconds, op_meridiem. -/
  | encode (hours minutes seconds meridiem : Word)
  /-- UPDATE, `cmd = 11` (42_update.md R150). -/
  | update
  deriving DecidableEq, Repr

/-- One presentation of HOST: the command code and the four operand ports (30_encoding.md R70, R72). -/
structure Command where
  /-- `cmd[1:0]`. -/
  cmd : CmdCode
  /-- The port `op_hours`. -/
  opHours : Word
  /-- The port `op_minutes`. -/
  opMinutes : Word
  /-- The port `op_seconds`. -/
  opSeconds : Word
  /-- The port `op_meridiem`. -/
  opMeridiem : Word
  deriving DecidableEq, Repr

end Sys2Proof
end

