-- ==== Sys2Proof/Decode.lean ====
section
/-! DEFINITION. The command decoder, total on every presentation (30_encoding.md R71: all four codes are defined), and
the encoder written from the same table. -/

namespace Sys2Proof

/-- The instruction a presentation stands for (30_encoding.md R71). The operand ports reach ENCODE unchanged, at full
width (R73), and are ignored by the other commands (R72). -/
def decodeCommand (c : Command) : Instr :=
  if c.cmd = 0#2 then .idle
  else if c.cmd = 1#2 then .decode
  else if c.cmd = 2#2 then .encode c.opHours c.opMinutes c.opSeconds c.opMeridiem
  else .update

/-- A presentation with the given code and zeros on the operand ports (log entry 11). -/
def bareCommand (code : CmdCode) : Command :=
  { cmd := code, opHours := 0, opMinutes := 0, opSeconds := 0, opMeridiem := 0 }

/-- The presentation that stands for an instruction (30_encoding.md R71, R72). The ports that the command ignores are zero
(DESIGN CHOICE, log entry 11). -/
def encodeCommand : Instr → Command
  | .idle => bareCommand 0#2
  | .decode => bareCommand 1#2
  | .encode h m s mer => { cmd := 2#2, opHours := h, opMinutes := m, opSeconds := s, opMeridiem := mer }
  | .update => bareCommand 3#2

/-- The presentation for a row of the opcode table: bits 1:0 of the table's word are `cmd`, bits from `nbits` up are zero,
and the operand ports, which are no part of the word, are zero (log entry 3). -/
def tableCommand (nbits w : Nat) : Command :=
  bareCommand (BitVec.ofNat 2 (w % 2 ^ nbits))

/-- What the decoder reads from a table word. It never refuses (30_encoding.md R71, R74). -/
def decodeTableWord (nbits w : Nat) : Option Instr :=
  some (decodeCommand (tableCommand nbits w))

end Sys2Proof
end

