-- ==== Sys2Proof/Config.lean ====
section
/-! DEFINITION. The constants of 00_scope.md R7, which a model hard-codes, and the OPEN parameters of 00_scope.md R9,
which are opaque constants: nothing can be proved of their values. -/

namespace Sys2Proof.Config

/-- ROUND_BIAS (R7): added before the shift, rounds halves up. -/
@[simp] abbrev roundBias : Int := 8

/-- ROUND_SHIFT (R7): the right shift that divides by TICKS_PER_SECOND = 16. -/
@[simp] abbrev roundShift : Nat := 4

/-- RAW_MIN (R7): the least valid TOD_PORT value. -/
@[simp] abbrev rawMin : Int := 0

/-- RAW_MAX (R7): the greatest valid TOD_PORT value, 16 * 86400, inclusive. -/
@[simp] abbrev rawMax : Int := 1382400

/-- SECONDS_PER_HOUR (R7). -/
@[simp] abbrev secondsPerHour : Int := 3600

/-- SECONDS_PER_MINUTE (R7). -/
@[simp] abbrev secondsPerMinute : Int := 60

/-- HOURS_PER_DAY (R7): the modulus of hours24. -/
@[simp] abbrev hoursPerDay : Int := 24

/-- NOON (R7): the least daySeconds that is PM. -/
@[simp] abbrev noon : Int := 43200

/-- The meridiem code AM (R7; 30_encoding.md R79). -/
@[simp] abbrev am : Int := 1

/-- The meridiem code PM (R7; 30_encoding.md R79). -/
@[simp] abbrev pm : Int := 2

/-- STATUS_OK (R7; 30_encoding.md R80). -/
@[simp] abbrev statusOk : BitVec 1 := 0#1

/-- STATUS_FAIL (R7; 30_encoding.md R80). -/
@[simp] abbrev statusFail : BitVec 1 := 1#1

/-- MIN_MAX (R7). -/
@[simp] abbrev minMax : Int := 59

/-- SEC_MAX (R7). -/
@[simp] abbrev secMax : Int := 59

/-- HR_MAX_CHECK (R7). -/
@[simp] abbrev hrMaxCheck : Int := 12

/-- MER_MAX_CHECK (R7): the only bound on the meridiem operand (90_conflicts.md C2). -/
@[simp] abbrev merMaxCheck : Int := 2

/-- OFF_MIN_ONES (R7). -/
@[simp] abbrev offMinOnes : Nat := 0

/-- OFF_MIN_TENS (R7). -/
@[simp] abbrev offMinTens : Nat := 7

/-- OFF_HR_ONES (R7). -/
@[simp] abbrev offHrOnes : Nat := 14

/-- OFF_HR_TENS (R7). -/
@[simp] abbrev offHrTens : Nat := 21

/-- AM_BIT (R7). -/
@[simp] abbrev amBit : Nat := 28

/-- PM_BIT (R7). -/
@[simp] abbrev pmBit : Nat := 29

/-- The nine entries of the glyph ROM that the spec leaves wholly open (10_state.md R25, D10; log entry 6). The value
at digit 1 is not used. -/
opaque glyphFree : Digit → Glyph

/-- GLYPH[1] less one. The spec's one constraint is that GLYPH[1] is not 0000000 (10_state.md R25), so GLYPH[1] is one of
the 127 values 1 to 127 and nothing more is known (log entry 6). -/
opaque glyphOnePred : Fin 127

/-- GLYPH, the DigitGlyphTable (10_state.md R25): ten entries of seven bits, immutable, every table with a nonzero
entry 1 and no other (log entry 6). -/
def glyph (d : Digit) : Glyph :=
  if d = 1 then BitVec.ofNat 7 (glyphOnePred.val + 1) else glyphFree d

/-- RESET_TOD (R9; 10_state.md R31; log entry 4). -/
opaque resetTod : Word

/-- RESET_DISP (R9; 10_state.md R31; log entry 4). -/
opaque resetDisp : Word

/-- RESET_T, register T.DSEC (R9; 10_state.md R31; log entry 4). -/
opaque resetTDsec : Word

/-- RESET_T, register T.HR (R9; 10_state.md R31; log entry 4). -/
opaque resetTHr : Word

/-- RESET_T, register T.MIN (R9; 10_state.md R31; log entry 4). -/
opaque resetTMin : Word

/-- RESET_T, register T.SEC (R9; 10_state.md R31; log entry 4). -/
opaque resetTSec : Word

/-- RESET_T, register T.MER (R9; 10_state.md R31; log entry 4). -/
opaque resetTMer : Word

/-- RESET_P (R9; 10_state.md R31; log entry 4). -/
opaque resetP : Word

/-- TOD_PORT_ADDR (R9; 20_memory.md R51): used by no rule, hence by no definition (log entry 12). -/
opaque todPortAddr : Nat

/-- DISP_PORT_ADDR (R9; 20_memory.md R51): used by no rule, hence by no definition (log entry 12). -/
opaque dispPortAddr : Nat

/-- SEGMENT_OF_BIT (R9; 30_encoding.md R82): which of the seven physical segments a glyph bit drives; used by no rule,
hence by no definition (log entry 12). -/
opaque segmentOfBit : Fin 7 → Fin 7

/-- The lit polarity that R9 lists with SEGMENT_OF_BIT: used by no rule, hence by no definition (log entry 12). -/
opaque litPolarity : Bool

end Sys2Proof.Config
end

