-- ==== Sys2Proof/Machine/State.lean ====
section
/-! DEFINITION. Every piece of state the spec gives CORE (10_state.md R20), the response of the last step, and what the
outside world does next; the reset state. -/

namespace Sys2Proof.Machine

/-- T, the five time-of-day result registers, each read as a sint32 (10_state.md R23). -/
structure TimeOfDay where
  /-- T.DSEC, daySeconds. -/
  dsec : Word
  /-- T.HR, hours on the 12-hour clock. -/
  hr : Word
  /-- T.MIN, minutes. -/
  min : Word
  /-- T.SEC, seconds. -/
  sec : Word
  /-- T.MER, the meridiem code. -/
  mer : Word
  deriving DecidableEq, Repr

/-- The whole architectural state of CORE: four items (10_state.md R20). -/
structure Registers where
  /-- TOD_PORT, the input register (10_state.md R21). -/
  todPort : Word
  /-- DISP_PORT, the output register (10_state.md R22). -/
  dispPort : Word
  /-- T, the result registers of DECODE (10_state.md R23). -/
  t : TimeOfDay
  /-- P, the result register of ENCODE (10_state.md R24). -/
  p : Word
  deriving DecidableEq, Repr

/-- The registers by name, for a read from outside (10_state.md R30). -/
inductive Reg where
  | todPort
  | dispPort
  | tDsec
  | tHr
  | tMin
  | tSec
  | tMer
  | p
  deriving DecidableEq, Repr

/-- What a step answers to the agent that caused it (00_scope.md R6, R15). -/
inductive Response where
  /-- No response: IDLE, EXT.WRITE, RESET, and a step with no event (42_update.md R157, 10_state.md R31). -/
  | none
  /-- The one-bit status of DECODE, ENCODE and UPDATE (30_encoding.md R80). -/
  | status (b : BitVec 1)
  /-- The value that a READ returns (30_encoding.md R77). -/
  | value (v : Word)
  deriving DecidableEq, Repr

/-- One event of the total order of 20_memory.md R57: the four commands, and the environment events of 30_encoding.md
R77. -/
inductive Event where
  /-- HOST issues a command (30_encoding.md R70). -/
  | command (c : Command)
  /-- EXT.WRITE v: EXT sets TOD_PORT to any sint32 (20_memory.md R58). -/
  | extWrite (v : Word)
  /-- READ by HOST, of any register (10_state.md R30). -/
  | hostRead (r : Reg)
  /-- READ of DISP_PORT by the display driver (20_memory.md R57; log entry 13). -/
  | driverRead
  /-- RESET, after which the registers hold any values, here the ones given (10_state.md R31, 70_reset_and_hazards.md R200;
  log entry 5). -/
  | reset (values : Registers)
  deriving DecidableEq, Repr

/-- The two error kinds of 60_exceptions.md R170. They are descriptive: the response does not tell them apart (R171). -/
inductive ErrorKind where
  /-- The sampled TOD_PORT is negative or above 1382400 (60_exceptions.md R172). -/
  | outOfRangeInput
  /-- ENCODE's operands fail the validity check (60_exceptions.md R173). -/
  | invalidTimeValue
  deriving DecidableEq, Repr

/-- What an operation computes before it writes: a value, or a failure of one kind (00_scope.md R15). -/
inductive OpResult (α : Type) where
  | ok (v : α)
  | fail (kind : ErrorKind)
  deriving DecidableEq, Repr

/-- The state of the machine: CORE's registers, and two fields of the MODEL's own. -/
structure State where
  /-- The architectural state (10_state.md R20). -/
  regs : Registers
  /-- The response of the last step. The model's own field: CORE stores no status (10_state.md R27), the host's step returns
  a state only, and no step reads this field (log entry 1). -/
  response : Response
  /-- The events that the outside world has lined up, the next one first (20_memory.md R57). The model's own field
  (log entry 2). -/
  events : List Event
  deriving DecidableEq, Repr

/-- CORE has no fault: every command from every state has exactly one outcome, a next state (60_exceptions.md R174, R186).
The type has no constructor (safe: there is nothing to hide a behaviour behind; log entry 10). -/
inductive Fault where
  deriving DecidableEq, Repr

/-- The refusals of the model. -/
inductive Refusal where
  /-- The host's name for an instruction that has no meaning yet. No arm of `exec` raises it: all four operations are
  modelled (safe). -/
  | notModelled (mnemonic : String)
  deriving DecidableEq, Repr

/-- The machine right after reset: every register at its OPEN reset parameter (10_state.md R31; log entry 4), no response
(R31), and no event lined up (log entry 2). -/
def State.reset : State where
  regs :=
    { todPort := Config.resetTod
      dispPort := Config.resetDisp
      t :=
        { dsec := Config.resetTDsec
          hr := Config.resetTHr
          min := Config.resetTMin
          sec := Config.resetTSec
          mer := Config.resetTMer }
      p := Config.resetP }
  response := .none
  events := []

end Sys2Proof.Machine
end

