-- ==== Sys2Proof/Machine/Ops.lean ====
section
/-! DEFINITION. The named operations over registers and ROM, and the one way an operation ends (00_scope.md R14, R15).
CORE has no byte memory (20_memory.md R50) and no trap entry or return (60_exceptions.md R174, R177): where another
hardware takes an exception, `returnFail` completes the operation with status 1 and writes nothing. -/

namespace Sys2Proof.Machine

/-- Read a register by name (00_scope.md R14). -/
def readReg (r : Reg) (s : State) : Word :=
  match r with
  | .todPort => s.regs.todPort
  | .dispPort => s.regs.dispPort
  | .tDsec => s.regs.t.dsec
  | .tHr => s.regs.t.hr
  | .tMin => s.regs.t.min
  | .tSec => s.regs.t.sec
  | .tMer => s.regs.t.mer
  | .p => s.regs.p

/-- `TOD_PORT <- v`, a write that only EXT makes (20_memory.md R58). -/
def writeTodPort (v : Word) (s : State) : State :=
  { s with regs := { s.regs with todPort := v } }

/-- `DISP_PORT <- v`, all 32 bits at once (10_state.md R22, 20_memory.md R54). -/
def writeDispPort (v : Word) (s : State) : State :=
  { s with regs := { s.regs with dispPort := v } }

/-- The five T registers written together (10_state.md R23, 40_decode.md R106). -/
def writeT (t : TimeOfDay) (s : State) : State :=
  { s with regs := { s.regs with t := t } }

/-- `P <- v`, all 32 bits at once (10_state.md R24, 41_encode.md R127). -/
def writeP (v : Word) (s : State) : State :=
  { s with regs := { s.regs with p := v } }

/-- Every register takes the given value (70_reset_and_hazards.md R200). -/
def writeRegisters (r : Registers) (s : State) : State :=
  { s with regs := r }

/-- The events still to come, once the next one has been taken (20_memory.md R57). -/
def leaveEvents (rest : List Event) (s : State) : State :=
  { s with events := rest }

/-- The step's response. -/
def respond (r : Response) (s : State) : State :=
  { s with response := r }

/-- `return OK`: response status 0 (00_scope.md R15). -/
def returnOk (s : State) : State := respond (.status Config.statusOk) s

/-- `return FAIL(kind)`: response status 1 whatever the kind, nothing saved and no control transferred (00_scope.md R15,
60_exceptions.md R171, R174). -/
def returnFail (_kind : ErrorKind) (s : State) : State := respond (.status Config.statusFail) s

/-- `return none` (42_update.md R157). -/
def returnNone (s : State) : State := respond .none s

/-- The end of an operation: on success the destination is written and the status is 0; a branch that returns FAIL contains
no writes (00_scope.md R15). -/
def conclude {α : Type} (r : OpResult α) (write : α → State → State) (s : State) : State :=
  match r with
  | .ok v => returnOk (write v s)
  | .fail kind => returnFail kind s

/-- `GLYPH[d]`: one read of the glyph ROM (00_scope.md R14, 41_encode.md R123). The index is a digit by its type
(20_memory.md R56). -/
def readGlyph (d : Digit) : Glyph := Config.glyph d

/-- `a >> k` on integers: an arithmetic shift right (00_scope.md R13). -/
def asr (a : Int) (k : Nat) : Int := a >>> k

/-- `zext_32(g) << k`: one glyph in its lane (00_scope.md R13, 41_encode.md R124). -/
def placeGlyph (g : Glyph) (k : Nat) : Word := g.setWidth 32 <<< k

end Sys2Proof.Machine
end

