-- ==== Sys2Proof/Machine/Flags.lean ====
section
/-! DEFINITION. CORE has no flag register (10_state.md R27). Its only flags are the two meridiem bits of a display
pattern (41_encode.md R126). -/

namespace Sys2Proof.Machine

/-- Bit 28 when the meridiem is exactly AM, bit 29 otherwise: a two-way branch, so that every accepted value other than 1 is
shown as PM (41_encode.md R126, 90_conflicts.md C3; log entry 9). -/
def meridiemFlag (mer : Int) : Word :=
  if mer = Config.am then 1#32 <<< Config.amBit else 1#32 <<< Config.pmBit

end Sys2Proof.Machine
end

