-- ==== Sys2Proof/Machine/Operands.lean ====
section
/-! DEFINITION. The operand forms: the one sample of TOD_PORT (20_memory.md R54), and ENCODE's four by-value operands,
their validity check (41_encode.md R121) and the digits split from them (R122). -/

namespace Sys2Proof.Machine

/-- The source of DECODE and UPDATE: TOD_PORT, read once as a sint32 (20_memory.md R54, 42_update.md R151). -/
def sampleTod (s : State) : Int := s.regs.todPort.toInt

/-- DECODE's range check fails (40_decode.md R100, R101): a signed comparison. -/
abbrev TicksInvalid (raw : Int) : Prop := raw < Config.rawMin ∨ raw > Config.rawMax

/-- The validity predicate of ENCODE: at least one of seven signed comparisons (41_encode.md R121). The meridiem has an upper
bound only (90_conflicts.md C2; log entry 9). -/
abbrev TimeInvalid (h m s mer : Int) : Prop :=
  m < 0 ∨ m > Config.minMax ∨ s < 0 ∨ s > Config.secMax ∨ h < 0 ∨ h > Config.hrMaxCheck ∨ mer > Config.merMaxCheck

/-- Operands that passed the validity check, with their bounds in the types, so that no ROM index outside 0..9 can be
written (20_memory.md R56, 41_encode.md R130). -/
structure CheckedTime where
  /-- 0..12; 0 is accepted (41_encode.md R121 (b)). -/
  hours : Fin 13
  /-- 0..59. -/
  minutes : Fin 60
  /-- 0..59; checked and never displayed (41_encode.md R121 (a)). -/
  seconds : Fin 60
  /-- Any value not above 2 (41_encode.md R121 (c)). -/
  meridiem : Int
  deriving DecidableEq, Repr

/-- The check that comes first in ENCODE (41_encode.md R120). -/
def checkTime (h m s mer : Int) : OpResult CheckedTime :=
  if bad : TimeInvalid h m s mer then .fail .invalidTimeValue
  else .ok
    { hours := ⟨h.toNat, by simp at bad; omega⟩
      minutes := ⟨m.toNat, by simp at bad; omega⟩
      seconds := ⟨s.toNat, by simp at bad; omega⟩
      meridiem := mer }

/-- m1 = m mod 10 (41_encode.md R122). -/
def minutesOnes (m : Fin 60) : Digit := ⟨m.val % 10, by omega⟩

/-- m10 = m / 10 (41_encode.md R122). -/
def minutesTens (m : Fin 60) : Digit := ⟨m.val / 10, by omega⟩

/-- h1 = h mod 10 (41_encode.md R122). -/
def hoursOnes (h : Fin 13) : Digit := ⟨h.val % 10, by omega⟩

/-- h10 = h / 10 (41_encode.md R122). -/
def hoursTens (h : Fin 13) : Digit := ⟨h.val / 10, by omega⟩

end Sys2Proof.Machine
end

