-- ==== Sys2Proof/Machine/DisplayEncoder.lean ====
section
/-! DEFINITION. ENCODE, the glyph mapper and bit-field packer (41_encode.md). -/

namespace Sys2Proof.Machine

/-- The packed pattern of checked operands (41_encode.md R120, R124): three lanes always drawn, the hours-tens lane only when
its digit is not 0 (R125), and one meridiem flag (R126). The glyph table is a parameter: the spec leaves it OPEN
(10_state.md R25). -/
def packPattern (rom : Digit → Glyph) (c : CheckedTime) : Word :=
  let drawn :=
    placeGlyph (rom (minutesOnes c.minutes)) Config.offMinOnes
      ||| placeGlyph (rom (minutesTens c.minutes)) Config.offMinTens
      ||| placeGlyph (rom (hoursOnes c.hours)) Config.offHrOnes
  let lanes :=
    if hoursTens c.hours ≠ 0 then drawn ||| placeGlyph (rom (hoursTens c.hours)) Config.offHrTens
    else drawn
  lanes ||| meridiemFlag c.meridiem

/-- `encode(h, m, s, mer)` as a pure function of its operands and the glyph table (41_encode.md R120, R131). -/
def encodeTime (rom : Digit → Glyph) (h m s mer : Int) : OpResult Word :=
  match checkTime h m s mer with
  | .ok c => .ok (packPattern rom c)
  | .fail kind => .fail kind

/-- ENCODE (41_encode.md R120): the four operands are read as sint32 at full width (30_encoding.md R73); on success P takes
all 32 bits of the pattern (R127). -/
def execEncode (h m sec mer : Word) (s : State) : Host.Outcome State Fault Refusal :=
  .next (conclude (encodeTime readGlyph h.toInt m.toInt sec.toInt mer.toInt) writeP s)

end Sys2Proof.Machine
end

