-- ==== Sys2Proof/Machine/RtcDecoder.lean ====
section
/-! DEFINITION. DECODE, the RTC register decoder (40_decode.md). -/

namespace Sys2Proof.Machine

/-- The record the decoder computes, as exact integers (30_encoding.md R83, 42_update.md preamble). -/
structure DecodedTime where
  dsec : Int
  hours : Int
  minutes : Int
  seconds : Int
  meridiem : Int
  deriving DecidableEq, Repr

/-- dsec = (raw + 8) >> 4: rounding to the nearest second, halves up (40_decode.md R102). -/
def daySeconds (raw : Int) : Int := asr (raw + Config.roundBias) Config.roundShift

/-- hours24 = (dsec / 3600) mod 24 (40_decode.md R103). -/
def hours24 (dsec : Int) : Int := dsec / Config.secondsPerHour % Config.hoursPerDay

/-- The 12-hour form of hours24 (40_decode.md R103). -/
def twelveHour (h24 : Int) : Int :=
  if h24 = 0 then 12 else if h24 > 12 then h24 - 12 else h24

/-- minutes = (dsec mod 3600) / 60 (40_decode.md R104). -/
def minutesOf (dsec : Int) : Int := dsec % Config.secondsPerHour / Config.secondsPerMinute

/-- seconds = dsec mod 60 (40_decode.md R104). -/
def secondsOf (dsec : Int) : Int := dsec % Config.secondsPerMinute

/-- The meridiem, tested on dsec after rounding (40_decode.md R105). -/
def meridiemOf (dsec : Int) : Int := if dsec ≥ Config.noon then Config.pm else Config.am

/-- The record that a count of seconds stands for (40_decode.md R100). -/
def timeOfSeconds (dsec : Int) : DecodedTime where
  dsec := dsec
  hours := twelveHour (hours24 dsec)
  minutes := minutesOf dsec
  seconds := secondsOf dsec
  meridiem := meridiemOf dsec

/-- `decode(raw)` as a pure function (40_decode.md R100): the range check first, then the arithmetic on exact integers
(R108). At the end of the day dsec is 86400 and the record is 12:00:00 PM (R110, 90_conflicts.md C1; log entry 8). -/
def decodeTime (raw : Int) : OpResult DecodedTime :=
  if TicksInvalid raw then .fail .outOfRangeInput else .ok (timeOfSeconds (daySeconds raw))

/-- The record as the five T registers hold it (10_state.md R23). -/
def toRegisters (t : DecodedTime) : TimeOfDay where
  dsec := sint t.dsec
  hr := sint t.hours
  min := sint t.minutes
  sec := sint t.seconds
  mer := sint t.meridiem

/-- DECODE (40_decode.md R100): sample TOD_PORT, and on success write the five T registers together (R106). -/
def execDecode (s : State) : Host.Outcome State Fault Refusal :=
  .next (conclude (decodeTime (sampleTod s)) (fun t => writeT (toRegisters t)) s)

end Sys2Proof.Machine
end

