-- ==== Sys2Proof/Machine/UpdateSequencer.lean ====
section
/-! DEFINITION. UPDATE, the update sequencer, and IDLE (42_update.md). -/

namespace Sys2Proof.Machine

/-- The straight line of UPDATE up to its write (42_update.md R150, R155): decoder stage, then encoder stage, stopping at the
first that fails (60_exceptions.md R175). The encoder's failure branch is kept although it is dead (42_update.md R153). -/
def updatePattern (rom : Digit → Glyph) (raw : Int) : OpResult Word :=
  match decodeTime raw with
  | .ok t => encodeTime rom t.hours t.minutes t.seconds t.meridiem
  | .fail kind => .fail kind

/-- UPDATE (42_update.md R150): one sample of TOD_PORT (R151) and, on success, one write of DISP_PORT (R152). T and P are not
written (R154). -/
def execUpdate (s : State) : Host.Outcome State Fault Refusal :=
  .next (conclude (updatePattern readGlyph (sampleTod s)) writeDispPort s)

/-- IDLE (42_update.md R157): no register is read or written, and there is no status. -/
def execIdle (s : State) : Host.Outcome State Fault Refusal :=
  .next (returnNone s)

end Sys2Proof.Machine
end

