-- ==== Sys2Proof/Machine/Dispatch.lean ====
section
/-! DEFINITION. One arm per row of spec/opcode_table.json (30_encoding.md R71). -/

namespace Sys2Proof.Machine

def exec (i : Instr) (s : State) : Host.Outcome State Fault Refusal :=
  match i with
  | .idle => Sys2Proof.Machine.execIdle s
  | .decode => Sys2Proof.Machine.execDecode s
  | .encode hours minutes seconds meridiem => Sys2Proof.Machine.execEncode hours minutes seconds meridiem s
  | .update => Sys2Proof.Machine.execUpdate s

end Sys2Proof.Machine
end

