-- ==== Sys2Proof/Machine/Environment.lean ====
section
/-! DEFINITION. What the agents other than CORE may do between operations (20_memory.md R57, 30_encoding.md R77). -/

namespace Sys2Proof.Machine

/-- EXT.WRITE v (20_memory.md R58): TOD_PORT takes any sint32, valid or not. -/
def extWrite (v : Word) (s : State) : State := returnNone (writeTodPort v s)

/-- A READ by HOST (10_state.md R30): the value is the response and nothing changes (20_memory.md R55). -/
def hostRead (r : Reg) (s : State) : State := respond (.value (readReg r s)) s

/-- A READ of DISP_PORT by the display driver (20_memory.md R57; log entry 13). -/
def driverRead (s : State) : State := respond (.value (readReg .dispPort s)) s

/-- RESET (70_reset_and_hazards.md R200): the registers hold whatever values the event brings, and there is no response
(10_state.md R31; log entry 5). -/
def resetTo (values : Registers) (s : State) : State := returnNone (writeRegisters values s)

/-- A step with no event lined up: CORE does nothing on its own between commands (42_update.md R155; log entry 2). -/
def noEvent (s : State) : State := returnNone s

end Sys2Proof.Machine
end

