-- ==== Sys2Proof/Machine/Step.lean ====
section
/-! DEFINITION. One step: the next event of the total order of 20_memory.md R57 happens. -/

namespace Sys2Proof.Machine

/-- One step takes the next event: a command is decoded and executed, an environment event has its effect, and with no event
lined up nothing happens (20_memory.md R57, 42_update.md R155; log entry 2). -/
def step (s : State) : Host.Outcome State Fault Refusal :=
  match s.events with
  | [] => .next (noEvent s)
  | .command c :: rest => exec (decodeCommand c) (leaveEvents rest s)
  | .extWrite v :: rest => .next (extWrite v (leaveEvents rest s))
  | .hostRead r :: rest => .next (hostRead r (leaveEvents rest s))
  | .driverRead :: rest => .next (driverRead (leaveEvents rest s))
  | .reset values :: rest => .next (resetTo values (leaveEvents rest s))

/-- The state in which HOST issues the table's command next, ahead of whatever else is lined up; the operand ports hold zeros
(log entry 3). -/
def State.withFetchWord (s : State) (nbits w : Nat) : State :=
  { s with events := .command (tableCommand nbits w) :: s.events }

end Sys2Proof.Machine
end

