-- ==== Sys2Proof/WellFormed.lean ====
section
/-! DEFINITION. What is well formed. No instruction of CORE is ill formed (30_encoding.md R72, R74); the two checks that
can refuse something are that of a presentation in the encoder's own form and that of a glyph table. -/

namespace Sys2Proof

/-- Every instruction is well formed: none of the command codes is illegal or reserved (30_encoding.md R74) and any four
sint32 values may be presented to ENCODE, valid or not (R72). -/
def Instr.wellFormed : Instr → Bool
  | .idle => true
  | .decode => true
  | .encode _ _ _ _ => true
  | .update => true

/-- The ports that a command ignores are zero. Only ENCODE reads the operand ports (30_encoding.md R72), so the other
commands may be presented with anything on them; the encoder writes zeros there (DESIGN CHOICE, log entry 11). -/
def Command.canonical (c : Command) : Bool :=
  c.cmd == 2#2 || (c.opHours == 0 && c.opMinutes == 0 && c.opSeconds == 0 && c.opMeridiem == 0)

/-- The one constraint the source puts on a glyph table: entry 1 is not 0000000 (10_state.md R25). -/
def glyphTableWellFormed (rom : Digit → Glyph) : Bool := rom 1 != 0

end Sys2Proof
end

