-- ==== Sys2Proof/Safety.lean ====
section
/-! DEFINITION. The terms the statements use: valid inputs, what a display pattern shows, the invariants, and runs. -/

namespace Sys2Proof.Safety

open Sys2Proof.Machine

/-- A valid TOD_PORT value (10_state.md R21, 40_decode.md R101). -/
abbrev ValidTicks (raw : Int) : Prop := 0 ≤ raw ∧ raw ≤ 1382400

/-- Operands that ENCODE accepts (41_encode.md R121). -/
abbrev ValidTime (h m s mer : Int) : Prop :=
  (0 ≤ m ∧ m ≤ 59) ∧ (0 ≤ s ∧ s ≤ 59) ∧ (0 ≤ h ∧ h ≤ 12) ∧ mer ≤ 2

/-- The TimeOfDay invariant (10_state.md R32): the four other registers are those that 40_decode.md R100 computes from
T.DSEC, which lies in [0, 86400] (90_conflicts.md C1). -/
structure TimeConsistent (t : TimeOfDay) : Prop where
  dsec_range : 0 ≤ t.dsec.toInt ∧ t.dsec.toInt ≤ 86400
  hr : t.hr.toInt =
    (if t.dsec.toInt / 3600 % 24 = 0 then 12
     else if t.dsec.toInt / 3600 % 24 > 12 then t.dsec.toInt / 3600 % 24 - 12
     else t.dsec.toInt / 3600 % 24)
  min : t.min.toInt = t.dsec.toInt % 3600 / 60
  sec : t.sec.toInt = t.dsec.toInt % 60
  mer : t.mer.toInt = (if t.dsec.toInt ≥ 43200 then 2 else 1)

/-- A digit as a ROM index. -/
def digit (n : Nat) : Digit := Fin.ofNat 10 n

/-- The fields of a display pattern that shows `h`:`m` and one meridiem flag (10_state.md R22, 30_encoding.md R81):
the field at offset k and of width w is `extractLsb' k w`. -/
structure Shows (pat : Word) (h m : Nat) (isPm : Bool) : Prop where
  min_ones : pat.extractLsb' 0 7 = Config.glyph (digit (m % 10))
  min_tens : pat.extractLsb' 7 7 = Config.glyph (digit (m / 10))
  hr_ones : pat.extractLsb' 14 7 = Config.glyph (digit (h % 10))
  hr_tens : pat.extractLsb' 21 7 = if 10 ≤ h then Config.glyph 1 else 0#7
  am_flag : pat.getLsbD 28 = !isPm
  pm_flag : pat.getLsbD 29 = isPm
  reserved : pat.extractLsb' 30 2 = 0#2

/-- A pattern that ENCODE can produce: hours 0..12, minutes 0..59 (41_encode.md R121). -/
def EncoderPattern (pat : Word) : Prop :=
  ∃ (h m : Nat) (isPm : Bool), h ≤ 12 ∧ m ≤ 59 ∧ Shows pat h m isPm

/-- A pattern that UPDATE can produce: a clock time, so hours 1..12 (42_update.md R159). -/
def ClockPattern (pat : Word) : Prop :=
  ∃ (h m : Nat) (isPm : Bool), 1 ≤ h ∧ h ≤ 12 ∧ m ≤ 59 ∧ Shows pat h m isPm

/-- RESET is not among the events lined up. -/
def NoResetAhead (s : State) : Prop := ∀ values : Registers, Event.reset values ∉ s.events

/-- What holds between resets (70_reset_and_hazards.md R201 (c), (d)): each of T, P and DISP_PORT still holds what it held
right after the last reset, or is meaningful. `atReset` is the register contents right after that reset, any values
(10_state.md R31). -/
structure MeaningfulSince (atReset : Registers) (s : State) : Prop where
  no_reset : NoResetAhead s
  time : s.regs.t = atReset.t ∨ TimeConsistent s.regs.t
  pattern : s.regs.p = atReset.p ∨ EncoderPattern s.regs.p
  display : s.regs.dispPort = atReset.dispPort ∨ ClockPattern s.regs.dispPort

/-- The next step is a RESET or a successful UPDATE: the only ones that may write DISP_PORT (20_memory.md R59). -/
def WritesDisplayNext (s : State) : Prop :=
  (∃ values rest, s.events = .reset values :: rest) ∨
  (∃ c rest, s.events = .command c :: rest ∧ decodeCommand c = .update ∧ ValidTicks s.regs.todPort.toInt)

/-- The next step is an EXT.WRITE or a RESET: the only ones that may change TOD_PORT (20_memory.md R58, R59). -/
def WritesTodNext (s : State) : Prop :=
  (∃ v rest, s.events = .extWrite v :: rest) ∨ (∃ values rest, s.events = .reset values :: rest)

/-- `t` is the state `n` steps after `s`, and none of those steps is one that `bad` describes. -/
def ReachesAvoiding (bad : State → Prop) : Nat → State → State → Prop
  | 0, s, t => s = t
  | n + 1, s, t => ¬ bad s ∧ ∃ u, step s = .next u ∧ ReachesAvoiding bad n u t

/-- DECODE's arithmetic done on 32-bit two's complement words, every operation wrapping (40_decode.md R108 says that no
operation ever does wrap on a valid input). -/
def wordDecode (w : Word) : TimeOfDay :=
  let d := (w + 8#32).sshiftRight 4
  let h24 := (d.sdiv 3600#32).srem 24#32
  { dsec := d
    hr := if h24 = 0#32 then 12#32 else if (12#32).slt h24 then h24 - 12#32 else h24
    min := (d.srem 3600#32).sdiv 60#32
    sec := d.srem 60#32
    mer := if (43200#32).sle d then 2#32 else 1#32 }

end Sys2Proof.Safety
end

