-- ==== Sys2Proof/Certificates/Slice0/Obligations.lean ====
section
/-! DEFINITION. The statements for the provers. Each docstring names the rule of spec/ it formalises, or says that it is the
model's choice. None of them rests on a reset value or on a glyph value: a free value that occurs in one is the constant of
Config, whatever it is. The response that a statement reads is the step's response of 00_scope.md R6 and R15, which the model
keeps in a field of its own (log entry 1). -/

open Sys2Proof Sys2Proof.Machine Sys2Proof.Safety

/-! ## Commands -/

/-- A step at which HOST has issued a command executes the decoded operation, on the state in which that event is taken from
the list and nothing else is changed. The list is the model's own field (log entries 2 and 3). -/
def Obligations.StepRunsTheIssuedCommand : Prop :=
  ∀ (s : State) (c : Command) (rest : List Event) (i : Instr),
    s.events = .command c :: rest → decodeCommand c = i → step s = exec i { s with events := rest }

/-- 30_encoding.md R71: the four codes, all defined, each with whatever stands on the operand ports. -/
def Obligations.FourCodesSelectFourOperations : Prop :=
  ∀ h m sec mer : Word,
    decodeCommand ⟨0b00#2, h, m, sec, mer⟩ = .idle ∧
    decodeCommand ⟨0b01#2, h, m, sec, mer⟩ = .decode ∧
    decodeCommand ⟨0b10#2, h, m, sec, mer⟩ = .encode h m sec mer ∧
    decodeCommand ⟨0b11#2, h, m, sec, mer⟩ = .update

/-- Decoding an encoded instruction gives it back, with every operand at every value (30_encoding.md R71 to R73). -/
def Obligations.DecodeUndoesEncode : Prop :=
  ∀ i : Instr, i.wellFormed = true → decodeCommand (encodeCommand i) = i

/-- Encoding a decoded presentation gives it back, where the ports that its command ignores are zero. That the encoder puts
zeros there is the model's choice (log entry 11). -/
def Obligations.EncodeUndoesDecodeOnCanonicalCommands : Prop :=
  ∀ c : Command, c.canonical = true → encodeCommand (decodeCommand c) = c

/-- 42_update.md R157: IDLE writes no register and gives no status. -/
def Obligations.IdleOperation : Prop :=
  (∀ h m sec mer : Word, decodeCommand ⟨0b00#2, h, m, sec, mer⟩ = .idle) ∧
  ∀ s : State, exec .idle s = .next { s with response := .none }

/-! ## DECODE -/

/-- 40_decode.md R100, the whole operation: on success the five T registers and the status, on failure the status, and
nothing else. -/
def Obligations.DecodeOperation : Prop :=
  (∀ h m sec mer : Word, decodeCommand ⟨0b01#2, h, m, sec, mer⟩ = .decode) ∧
  ∀ s : State,
    let raw : Int := s.regs.todPort.toInt
    let dsec : Int := (raw + 8) >>> (4 : Nat)
    let h24 : Int := dsec / 3600 % 24
    (¬ (raw < 0 ∨ raw > 1382400) →
      exec .decode s = .next
        { s with
          regs :=
            { s.regs with
              t :=
                { dsec := sint dsec
                  hr := sint (if h24 = 0 then 12 else if h24 > 12 then h24 - 12 else h24)
                  min := sint (dsec % 3600 / 60)
                  sec := sint (dsec % 60)
                  mer := sint (if dsec ≥ 43200 then 2 else 1) } }
          response := .status 0#1 }) ∧
    (raw < 0 ∨ raw > 1382400 → exec .decode s = .next { s with response := .status 1#1 })

/-- 40_decode.md R101: DECODE succeeds exactly on the closed interval, compared as a signed number, with the rule's own
examples. -/
def Obligations.DecodeStatusIsSignedRangeCheck : Prop :=
  (∀ s : State, ∃ t, exec .decode s = .next t ∧
    (t.response = .status 0#1 ↔ ValidTicks s.regs.todPort.toInt) ∧
    (t.response = .status 1#1 ↔ ¬ ValidTicks s.regs.todPort.toInt)) ∧
  (∀ s : State, s.regs.todPort = 0x151800#32 → ∃ t, exec .decode s = .next t ∧ t.response = .status 0#1) ∧
  (∀ s : State,
    s.regs.todPort = 0x151801#32 ∨ s.regs.todPort = 0xFFFFFFFF#32 ∨ s.regs.todPort = 0x80000000#32 ∨
      s.regs.todPort = 0x7FFFFFFF#32 →
    exec .decode s = .next { s with response := .status 1#1 })

/-- 40_decode.md R102: rounding to the nearest second with halves up, and the three equal readings of the shift. -/
def Obligations.DecodeRoundsHalvesUp : Prop :=
  ∀ (s : State) (S r : Int),
    s.regs.todPort.toInt = 16 * S + r → 0 ≤ r → r ≤ 15 → ValidTicks s.regs.todPort.toInt →
    ∃ t, exec .decode s = .next t ∧
      t.regs.t.dsec.toInt = (if r ≤ 7 then S else S + 1) ∧
      t.regs.t.dsec.toInt = (s.regs.todPort.toInt + 8) / 16 ∧
      t.regs.t.dsec = (s.regs.todPort + 8#32).sshiftRight 4 ∧
      t.regs.t.dsec = (s.regs.todPort + 8#32) >>> (4 : Nat)

/-- 40_decode.md R103: the range of hours24, the table of the 12-hour form, and the one value for which mod 24 matters. -/
def Obligations.DecodeTwelveHourTable : Prop :=
  ∀ s : State, ValidTicks s.regs.todPort.toInt → ∃ t, exec .decode s = .next t ∧
    let h24 : Int := t.regs.t.dsec.toInt / 3600 % 24
    0 ≤ h24 ∧ h24 ≤ 23 ∧
    [12, 1, 2, 3, 4, 5, 6, 7, 8, 9, 10, 11, 12, 1, 2, 3, 4, 5, 6, 7, 8, 9, 10, 11][h24.toNat]? = some t.regs.t.hr.toInt ∧
    (t.regs.t.dsec.toInt / 3600 ≠ h24 ↔ t.regs.t.dsec.toInt = 86400)

/-- 40_decode.md R104: minutes and seconds, with their ranges, in the T registers and for every non-negative count. -/
def Obligations.DecodeMinutesAndSeconds : Prop :=
  (∀ s : State, ValidTicks s.regs.todPort.toInt → ∃ t, exec .decode s = .next t ∧
    t.regs.t.min.toInt = t.regs.t.dsec.toInt % 3600 / 60 ∧ t.regs.t.sec.toInt = t.regs.t.dsec.toInt % 60) ∧
  (∀ dsec : Int, 0 ≤ dsec →
    minutesOf dsec = dsec % 3600 / 60 ∧ 0 ≤ minutesOf dsec ∧ minutesOf dsec ≤ 59 ∧
    secondsOf dsec = dsec % 60 ∧ 0 ≤ secondsOf dsec ∧ secondsOf dsec ≤ 59)

/-- 40_decode.md R105: PM from 43200 seconds on, tested after rounding, which in ticks is from 691192 on. -/
def Obligations.DecodeMeridiemTurnsAtNoon : Prop :=
  ∀ s : State, ValidTicks s.regs.todPort.toInt → ∃ t, exec .decode s = .next t ∧
    (t.regs.t.mer = if t.regs.t.dsec.toInt ≥ 43200 then 2#32 else 1#32) ∧
    (s.regs.todPort.toInt ≤ 691191 → t.regs.t.mer = 1#32) ∧
    (s.regs.todPort.toInt ≥ 691192 → t.regs.t.mer = 2#32)

/-- 40_decode.md R106: all five T registers are written, with values derived from the one sample and satisfying the TimeOfDay
invariant of 10_state.md R32, or none is written. -/
def Obligations.DecodeWritesAllFiveOrNone : Prop :=
  ∀ s : State, ∃ t, exec .decode s = .next t ∧
    ((t.response = .status 0#1 ∧ t.regs.t.dsec.toInt = (s.regs.todPort.toInt + 8) / 16 ∧ TimeConsistent t.regs.t) ∨
     (t.response = .status 1#1 ∧ t.regs.t = s.regs.t))

/-- The spec's own inference 40_decode.md R108 from R100: the same five values come out when every operation is done on wrapping 32-bit words. -/
def Obligations.DecodeOnWordsIsExact : Prop :=
  ∀ s : State, ValidTicks s.regs.todPort.toInt →
    exec .decode s = .next
      { s with regs := { s.regs with t := wordDecode s.regs.todPort }, response := .status 0#1 }

/-- 40_decode.md R109: the table of corner cases. A row is TOD_PORT and the five T registers. -/
def Obligations.DecodeCornerCases : Prop :=
  (∀ row ∈ ([(0, 0, 12, 0, 0, 1), (7, 0, 12, 0, 0, 1), (8, 1, 12, 0, 1, 1), (691184, 43199, 11, 59, 59, 1),
      (691192, 43200, 12, 0, 0, 2), (691200, 43200, 12, 0, 0, 2), (1382400, 86400, 12, 0, 0, 2)] :
      List (Word × Word × Word × Word × Word × Word)),
    ∀ s : State, s.regs.todPort = row.1 →
      exec .decode s = .next
        { s with
          regs :=
            { s.regs with
              t := ⟨row.2.1, row.2.2.1, row.2.2.2.1, row.2.2.2.2.1, row.2.2.2.2.2⟩ }
          response := .status 0#1 }) ∧
  (∀ raw ∈ ([1382401#32, BitVec.ofInt 32 (-1)] : List Word),
    ∀ s : State, s.regs.todPort = raw → exec .decode s = .next { s with response := .status 1#1 })

/-- The spec's own inference 40_decode.md R110 from R100 (90_conflicts.md C1, log entry 8): the nine end-of-day values decode as 12:00:00 PM with T.DSEC = 86400. -/
def Obligations.DecodeEndOfDay : Prop :=
  ∀ s : State, 1382392 ≤ s.regs.todPort.toInt → s.regs.todPort.toInt ≤ 1382400 →
    exec .decode s = .next
      { s with
        regs := { s.regs with t := ⟨86400#32, 12#32, 0#32, 0#32, 2#32⟩ }, response := .status 0#1 }

/-- The spec's own inference 40_decode.md R111 (a) and (e) from R100: ranges after every successful DECODE, and what T.MER and T.HR say. -/
def Obligations.DecodeRanges : Prop :=
  ∀ s : State, ValidTicks s.regs.todPort.toInt → ∃ t, exec .decode s = .next t ∧
    t.response = .status 0#1 ∧
    (1 ≤ t.regs.t.hr.toInt ∧ t.regs.t.hr.toInt ≤ 12) ∧
    (0 ≤ t.regs.t.min.toInt ∧ t.regs.t.min.toInt ≤ 59) ∧
    (0 ≤ t.regs.t.sec.toInt ∧ t.regs.t.sec.toInt ≤ 59) ∧
    (t.regs.t.mer.toInt = 1 ∨ t.regs.t.mer.toInt = 2) ∧
    (t.regs.t.mer.toInt = 2 ↔ t.regs.t.dsec.toInt ≥ 43200) ∧
    (t.regs.t.hr.toInt = 12 ↔
      t.regs.t.dsec.toInt / 3600 % 24 = 0 ∨ t.regs.t.dsec.toInt / 3600 % 24 = 12)

/-- The spec's own inference 40_decode.md R111 (c) from R100: a whole number of seconds in ticks decodes to that number of seconds. -/
def Obligations.DecodeRoundTripOfSeconds : Prop :=
  ∀ (s : State) (d : Int), 0 ≤ d → d ≤ 86399 → s.regs.todPort.toInt = 16 * d →
    ∃ t, exec .decode s = .next t ∧ t.response = .status 0#1 ∧ t.regs.t.dsec.toInt = d

/-- The spec's own inference 40_decode.md R111 (f) from R100: DECODE's outcome depends on TOD_PORT alone, and a second DECODE on the same TOD_PORT gives the same
result. -/
def Obligations.DecodeDependsOnTodPortAlone : Prop :=
  ∀ s₁ s₂ : State, s₁.regs.todPort = s₂.regs.todPort →
    ∃ t₁ t₂, exec .decode s₁ = .next t₁ ∧ exec .decode s₂ = .next t₂ ∧
      t₁.response = t₂.response ∧
      (t₁.response = .status 0#1 → t₁.regs.t = t₂.regs.t) ∧
      exec .decode t₁ = .next t₁

/-! ## ENCODE -/

/-- 41_encode.md R120, the whole operation: on success P and the status, on failure the status, and nothing else. -/
def Obligations.EncodeOperation : Prop :=
  (∀ h m sec mer : Word, decodeCommand ⟨0b10#2, h, m, sec, mer⟩ = .encode h m sec mer) ∧
  ∀ (s : State) (h m sec mer : Word),
    let bad : Prop :=
      m.toInt < 0 ∨ m.toInt > 59 ∨ sec.toInt < 0 ∨ sec.toInt > 59 ∨ h.toInt < 0 ∨ h.toInt > 12 ∨ mer.toInt > 2
    (¬ bad →
      exec (.encode h m sec mer) s = .next
        { s with
          regs :=
            { s.regs with
              p :=
                (Config.glyph (digit (m.toNat % 10))).setWidth 32
                  ||| ((Config.glyph (digit (m.toNat / 10))).setWidth 32 <<< 7)
                  ||| ((Config.glyph (digit (h.toNat % 10))).setWidth 32 <<< 14)
                  ||| (if h.toNat / 10 ≠ 0 then (Config.glyph (digit (h.toNat / 10))).setWidth 32 <<< 21 else 0#32)
                  ||| (if mer.toInt = 1 then 1#32 <<< 28 else 1#32 <<< 29) }
          response := .status 0#1 }) ∧
    (bad → exec (.encode h m sec mer) s = .next { s with response := .status 1#1 })

/-- 41_encode.md R121: ENCODE fails exactly when one of the seven signed comparisons is true, equivalently succeeds exactly on
the given ranges; seconds is checked, hours 0 is accepted, and the meridiem has an upper bound only. -/
def Obligations.EncodeValidityCheck : Prop :=
  ∀ (s : State) (h m sec mer : Word), ∃ t, exec (.encode h m sec mer) s = .next t ∧
    (t.response = .status 1#1 ↔
      m.toInt < 0 ∨ m.toInt > 59 ∨ sec.toInt < 0 ∨ sec.toInt > 59 ∨ h.toInt < 0 ∨ h.toInt > 12 ∨ mer.toInt > 2) ∧
    (t.response = .status 0#1 ↔
      (0 ≤ m.toInt ∧ m.toInt ≤ 59) ∧ (0 ≤ sec.toInt ∧ sec.toInt ≤ 59) ∧ (0 ≤ h.toInt ∧ h.toInt ≤ 12) ∧
        mer.toInt ≤ 2)

/-- 41_encode.md R124, with the digits of R122: the four lanes, bit by bit; each is decided by its own digit alone. -/
def Obligations.EncodeLanePlacement : Prop :=
  ∀ (s : State) (h m sec mer : Word), ValidTime h.toInt m.toInt sec.toInt mer.toInt →
    ∃ t, exec (.encode h m sec mer) s = .next t ∧
      ∀ j : Nat, j < 7 →
        t.regs.p.getLsbD j = (Config.glyph (digit (m.toNat % 10))).getLsbD j ∧
        t.regs.p.getLsbD (7 + j) = (Config.glyph (digit (m.toNat / 10))).getLsbD j ∧
        t.regs.p.getLsbD (14 + j) = (Config.glyph (digit (h.toNat % 10))).getLsbD j ∧
        t.regs.p.getLsbD (21 + j) =
          (if h.toNat / 10 = 0 then false else (Config.glyph (digit (h.toNat / 10))).getLsbD j)

/-- 41_encode.md R125: only the hours-tens lane is ever suppressed, exactly for hours below 10. -/
def Obligations.EncodeLeadingZeroSuppression : Prop :=
  ∀ (s : State) (h m sec mer : Word), ValidTime h.toInt m.toInt sec.toInt mer.toInt →
    ∃ t, exec (.encode h m sec mer) s = .next t ∧
      (h.toInt ≤ 9 → t.regs.p.extractLsb' 21 7 = 0#7) ∧
      (10 ≤ h.toInt → t.regs.p.extractLsb' 21 7 = Config.glyph 1 ∧ t.regs.p.extractLsb' 21 7 ≠ 0#7) ∧
      (m.toInt ≤ 9 → t.regs.p.extractLsb' 7 7 = Config.glyph 0) ∧
      t.regs.p.extractLsb' 7 7 = Config.glyph (digit (m.toNat / 10)) ∧
      t.regs.p.extractLsb' 0 7 = Config.glyph (digit (m.toNat % 10)) ∧
      t.regs.p.extractLsb' 14 7 = Config.glyph (digit (h.toNat % 10)) ∧
      (h = 0#32 → t.regs.p.extractLsb' 14 7 = Config.glyph 0 ∧ t.regs.p.extractLsb' 21 7 = 0#7)

/-- 41_encode.md R126: exactly one flag, AM for meridiem 1 and PM for every other accepted value, which gives the pattern of
meridiem 2. -/
def Obligations.EncodeMeridiemFlags : Prop :=
  ∀ (s : State) (h m sec mer : Word), ValidTime h.toInt m.toInt sec.toInt mer.toInt →
    ∃ t, exec (.encode h m sec mer) s = .next t ∧
      t.regs.p.getLsbD 28 = decide (mer = 1#32) ∧
      t.regs.p.getLsbD 29 = !decide (mer = 1#32) ∧
      (mer ≠ 1#32 → exec (.encode h m sec 2#32) s = .next t)

/-- 41_encode.md R127: on success P receives the four lanes, the two flags and zeros in 31:30, and nothing of its old value; on
failure it keeps all 32 bits. -/
def Obligations.EncodeWritesWholePattern : Prop :=
  ∀ (s : State) (h m sec mer : Word),
    (ValidTime h.toInt m.toInt sec.toInt mer.toInt → ∃ pat : Word,
      Shows pat h.toNat m.toNat (!decide (mer = 1#32)) ∧
      ∀ old : Word, exec (.encode h m sec mer) { s with regs := { s.regs with p := old } } =
        .next { s with regs := { s.regs with p := pat }, response := .status 0#1 }) ∧
    (¬ ValidTime h.toInt m.toInt sec.toInt mer.toInt →
      ∃ t, exec (.encode h m sec mer) s = .next t ∧ t.regs.p = s.regs.p)

/-- The spec's own inference 41_encode.md R129 from R120: the pattern is below 2^30, and the same number read as signed or unsigned. -/
def Obligations.EncodePatternFitsThirtyBits : Prop :=
  ∀ (s : State) (h m sec mer : Word), ValidTime h.toInt m.toInt sec.toInt mer.toInt →
    ∃ t, exec (.encode h m sec mer) s = .next t ∧
      t.regs.p.toNat < 2 ^ 30 ∧ t.regs.p.toInt = (t.regs.p.toNat : Int)

/-- The spec's own inference 41_encode.md R130 from R120 and R122: the lanes and flags are disjoint, so that the pattern is also the sum of its parts. -/
def Obligations.EncodePatternIsASum : Prop :=
  ∀ (s : State) (h m sec mer : Word), ValidTime h.toInt m.toInt sec.toInt mer.toInt →
    ∃ t, exec (.encode h m sec mer) s = .next t ∧
      t.regs.p.toNat =
        (Config.glyph (digit (m.toNat % 10))).toNat + (Config.glyph (digit (m.toNat / 10))).toNat * 2 ^ 7 +
        (Config.glyph (digit (h.toNat % 10))).toNat * 2 ^ 14 +
        (if 10 ≤ h.toNat then (Config.glyph 1).toNat * 2 ^ 21 else 0) +
        (if mer = 1#32 then 2 ^ 28 else 2 ^ 29)

/-- The spec's own inference 41_encode.md R131 from R120: seconds and the meridiem beyond `mer = 1` do not reach the pattern, nor does any register; seconds does
reach the failure. -/
def Obligations.EncodeDependsOnHoursMinutesAndAmOnly : Prop :=
  (∀ (s₁ s₂ : State) (h m sec₁ sec₂ mer₁ mer₂ : Word),
    ValidTime h.toInt m.toInt sec₁.toInt mer₁.toInt → ValidTime h.toInt m.toInt sec₂.toInt mer₂.toInt →
    (mer₁ = 1#32 ↔ mer₂ = 1#32) →
    ∃ t₁ t₂, exec (.encode h m sec₁ mer₁) s₁ = .next t₁ ∧ exec (.encode h m sec₂ mer₂) s₂ = .next t₂ ∧
      t₁.regs.p = t₂.regs.p ∧ t₁.response = t₂.response) ∧
  (∀ (s : State) (h m mer : Word), ValidTime h.toInt m.toInt 59 mer.toInt →
    ∃ t₁ t₂, exec (.encode h m 59#32 mer) s = .next t₁ ∧ exec (.encode h m 60#32 mer) s = .next t₂ ∧
      t₁.response = .status 0#1 ∧ t₂.response = .status 1#1)

/-- The spec's own inference 41_encode.md R132 (a) from R120: minutes 60, seconds -1 and hours 13 are each rejected alone, leaving every register alone, and
hours 0 is accepted. -/
def Obligations.EncodeRejectsEachBadOperandAlone : Prop :=
  ∀ (s : State) (h m sec mer : Word), ValidTime h.toInt m.toInt sec.toInt mer.toInt →
    exec (.encode h 60#32 sec mer) s = .next { s with response := .status 1#1 } ∧
    exec (.encode h m (BitVec.ofInt 32 (-1)) mer) s = .next { s with response := .status 1#1 } ∧
    exec (.encode 13#32 m sec mer) s = .next { s with response := .status 1#1 } ∧
    ∃ t, exec (.encode 0#32 m sec mer) s = .next t ∧ t.response = .status 0#1

/-! ## UPDATE -/

/-- The spec's own inference 42_update.md R159 from R150, R100 and R120: the composed result, field by field, with everything else unchanged. -/
def Obligations.UpdateComposedResult : Prop :=
  ∀ s : State, ValidTicks s.regs.todPort.toInt →
    let dsec : Int := (s.regs.todPort.toInt + 8) >>> (4 : Nat)
    let h24 : Int := dsec / 3600 % 24
    let H : Int := if h24 = 0 then 12 else if h24 > 12 then h24 - 12 else h24
    let M : Int := dsec % 3600 / 60
    H ≠ 0 ∧
    ∃ pat : Word,
      exec .update s = .next { s with regs := { s.regs with dispPort := pat }, response := .status 0#1 } ∧
      pat.extractLsb' 0 7 = Config.glyph (digit (M.toNat % 10)) ∧
      pat.extractLsb' 7 7 = Config.glyph (digit (M.toNat / 10)) ∧
      pat.extractLsb' 14 7 = Config.glyph (digit (H.toNat % 10)) ∧
      pat.extractLsb' 21 7 = (if H ≥ 10 then Config.glyph 1 else 0#7) ∧
      pat.getLsbD 28 = decide (dsec < 43200) ∧
      pat.getLsbD 29 = decide (dsec ≥ 43200) ∧
      pat.extractLsb' 30 2 = 0#2

/-- 60_exceptions.md R172: on a TOD_PORT below 0 or above 1382400 both DECODE and UPDATE answer status 1 and write nothing. -/
def Obligations.OutOfRangeInputWritesNothing : Prop :=
  ∀ s : State, s.regs.todPort.toInt < 0 ∨ s.regs.todPort.toInt > 1382400 →
    exec .decode s = .next { s with response := .status 1#1 } ∧
    exec .update s = .next { s with response := .status 1#1 }

/-- 42_update.md R152: two outcomes only. On a valid TOD_PORT, DISP_PORT holds the complete new pattern: that of the time
sampled in this very step, its four lanes and two flags as 40_decode.md R100 and 41_encode.md R120 compute them and its reserved
bits zero. Otherwise DISP_PORT, like every other register, is bit for bit what it was. -/
def Obligations.UpdateAllOrNothing : Prop :=
  ∀ s : State,
    let dsec : Int := (s.regs.todPort.toInt + 8) >>> (4 : Nat)
    let h24 : Int := dsec / 3600 % 24
    let H : Int := if h24 = 0 then 12 else if h24 > 12 then h24 - 12 else h24
    let M : Int := dsec % 3600 / 60
    (ValidTicks s.regs.todPort.toInt ∧
      ∃ pat : Word, ClockPattern pat ∧ Shows pat H.toNat M.toNat (decide (dsec ≥ 43200)) ∧
        exec .update s = .next { s with regs := { s.regs with dispPort := pat }, response := .status 0#1 }) ∨
    (¬ ValidTicks s.regs.todPort.toInt ∧ exec .update s = .next { s with response := .status 1#1 })

/-- The spec's own inference 42_update.md R153 from R100 and R121: the encoder stage accepts every record the decoder stage gives, so that UPDATE fails exactly when
TOD_PORT is out of range. -/
def Obligations.UpdateEncoderStageNeverFails : Prop :=
  (∀ (rom : Digit → Glyph) (raw : Int) (d : DecodedTime), decodeTime raw = .ok d →
    (1 ≤ d.hours ∧ d.hours ≤ 12) ∧ (0 ≤ d.minutes ∧ d.minutes ≤ 59) ∧ (0 ≤ d.seconds ∧ d.seconds ≤ 59) ∧
    (d.meridiem = 1 ∨ d.meridiem = 2) ∧
    ∃ pat, encodeTime rom d.hours d.minutes d.seconds d.meridiem = .ok pat) ∧
  (∀ s : State, ∃ t, exec .update s = .next t ∧
    (t.response = .status 1#1 ↔ ¬ ValidTicks s.regs.todPort.toInt))

/-- 42_update.md R154: UPDATE does not write T or P. -/
def Obligations.UpdateKeepsTAndP : Prop :=
  ∀ s : State, ∃ t, exec .update s = .next t ∧ t.regs.t = s.regs.t ∧ t.regs.p = s.regs.p

/-- The spec's own inference 42_update.md R156 from R150: the new DISP_PORT and the status are a function of TOD_PORT, and a second UPDATE changes nothing. -/
def Obligations.UpdateIsIdempotent : Prop :=
  ∀ s₁ s₂ : State, s₁.regs.todPort = s₂.regs.todPort →
    ∃ t₁ t₂, exec .update s₁ = .next t₁ ∧ exec .update s₂ = .next t₂ ∧
      t₁.response = t₂.response ∧
      (t₁.response = .status 0#1 → t₁.regs.dispPort = t₂.regs.dispPort) ∧
      exec .update t₁ = .next t₁

/-- The spec's own inference 42_update.md R158 from R150, R100 and R120: UPDATE succeeds exactly when DECODE does, and then writes to DISP_PORT what DECODE followed by ENCODE of
the four T registers writes to P; each route leaves the other's registers alone. -/
def Obligations.UpdateEqualsDecodeThenEncode : Prop :=
  ∀ s : State, ∃ u d, exec .update s = .next u ∧ exec .decode s = .next d ∧
    (u.response = .status 0#1 ↔ d.response = .status 0#1) ∧
    (d.response = .status 0#1 →
      ∃ e, exec (.encode d.regs.t.hr d.regs.t.min d.regs.t.sec d.regs.t.mer) d = .next e ∧
        e.response = .status 0#1 ∧ e.regs.p = u.regs.dispPort ∧
        e.regs.t = d.regs.t ∧ e.regs.dispPort = s.regs.dispPort ∧
        u.regs.t = s.regs.t ∧ u.regs.p = s.regs.p)

/-- The spec's own inference 70_reset_and_hazards.md R207 from R102 and R150: UPDATEs in one displayed minute write one pattern, and the displayed minute changes half a
second early. -/
def Obligations.UpdateShowsMinutesNotSeconds : Prop :=
  (∀ s₁ s₂ : State, ValidTicks s₁.regs.todPort.toInt → ValidTicks s₂.regs.todPort.toInt →
    (s₁.regs.todPort.toInt + 8) / 16 / 60 = (s₂.regs.todPort.toInt + 8) / 16 / 60 →
    ∃ t₁ t₂, exec .update s₁ = .next t₁ ∧ exec .update s₂ = .next t₂ ∧ t₁.regs.dispPort = t₂.regs.dispPort) ∧
  (∀ (s : State) (k : Int), 1 ≤ k → k ≤ 1440 → s.regs.todPort.toInt = 16 * (60 * k) - 8 →
    ∃ t, exec .decode s = .next t ∧ t.regs.t.dsec.toInt = 60 * k)

/-- The spec's own inference 70_reset_and_hazards.md R206 from R100 (log entry 8): at the end of the day UPDATE succeeds and shows 12:00 with the PM flag. -/
def Obligations.UpdateEndOfDayShowsNoon : Prop :=
  ∀ s : State, 1382392 ≤ s.regs.todPort.toInt → s.regs.todPort.toInt ≤ 1382400 →
    ∃ t, exec .update s = .next t ∧ t.response = .status 0#1 ∧ Shows t.regs.dispPort 12 0 true

/-! ## The whole machine -/

/-- 60_exceptions.md R186: every operation from every state ends in a next state, and so does every step, whatever the event. -/
def Obligations.CoreIsNeverStuck : Prop :=
  (∀ (i : Instr) (s : State), ∃ t, exec i s = .next t) ∧ (∀ s : State, ∃ t, step s = .next t)

/-- 60_exceptions.md R174: a failing operation leaves every register, and the events to come, as they were, and CORE
remains ready for the next command. -/
def Obligations.FailureWritesNothing : Prop :=
  ∀ (i : Instr) (s t : State), exec i s = .next t → t.response = .status 1#1 →
    t.regs = s.regs ∧ t.events = s.events ∧ ∀ j : Instr, ∃ u, exec j t = .next u

/-- 10_state.md R30: the frame of every operation. TOD_PORT and the events to come never change, and each other register is
written by its own operation only. -/
def Obligations.OperationFrames : Prop :=
  ∀ (i : Instr) (s t : State), exec i s = .next t →
    t.regs.todPort = s.regs.todPort ∧ t.events = s.events ∧
    (t.regs.dispPort ≠ s.regs.dispPort → i = .update) ∧
    (t.regs.t ≠ s.regs.t → i = .decode) ∧
    (t.regs.p ≠ s.regs.p → ∃ h m sec mer, i = .encode h m sec mer)

/-- 20_memory.md R58: over a step of any agent, TOD_PORT changes only by EXT.WRITE or RESET, DISP_PORT only by a successful
UPDATE or RESET, T only by a successful DECODE or RESET, P only by ENCODE or RESET. -/
def Obligations.OnlyTheOwnerWritesARegister : Prop :=
  ∀ s t : State, step s = .next t →
    (t.regs.todPort ≠ s.regs.todPort → WritesTodNext s) ∧
    (t.regs.dispPort ≠ s.regs.dispPort → WritesDisplayNext s) ∧
    (t.regs.t ≠ s.regs.t →
      (∃ values rest, s.events = .reset values :: rest) ∨
      (∃ c rest, s.events = .command c :: rest ∧ decodeCommand c = .decode ∧ ValidTicks s.regs.todPort.toInt)) ∧
    (t.regs.p ≠ s.regs.p →
      (∃ values rest, s.events = .reset values :: rest) ∨
      (∃ c rest h m sec mer, s.events = .command c :: rest ∧ decodeCommand c = .encode h m sec mer ∧
        ValidTime h.toInt m.toInt sec.toInt mer.toInt))

/-- 20_memory.md R58: EXT.WRITE v sets TOD_PORT to v, whatever v is, and nothing else of CORE. -/
def Obligations.ExtWriteSetsTodPort : Prop :=
  ∀ (s : State) (v : Word) (rest : List Event), s.events = .extWrite v :: rest →
    step s = .next { regs := { s.regs with todPort := v }, response := .none, events := rest }

/-- 20_memory.md R55: a read from outside gives the register's value and changes no register. The value comes as the model's
response (log entry 1). -/
def Obligations.ReadsHaveNoSideEffects : Prop :=
  (∀ (s : State) (r : Reg) (rest : List Event), s.events = .hostRead r :: rest →
    ∃ v : Word, step s = .next { regs := s.regs, response := .value v, events := rest } ∧
      (match r with
       | .todPort => v = s.regs.todPort
       | .dispPort => v = s.regs.dispPort
       | .tDsec => v = s.regs.t.dsec
       | .tHr => v = s.regs.t.hr
       | .tMin => v = s.regs.t.min
       | .tSec => v = s.regs.t.sec
       | .tMer => v = s.regs.t.mer
       | .p => v = s.regs.p)) ∧
  (∀ (s : State) (rest : List Event), s.events = .driverRead :: rest →
    step s = .next { regs := s.regs, response := .value s.regs.dispPort, events := rest })

/-- 70_reset_and_hazards.md R200: RESET may leave any register values, gives no response, and CORE accepts any command at
once. That the events to come survive a RESET is the model's choice (log entry 5). -/
def Obligations.ResetLeavesAnyValues : Prop :=
  ∀ (s : State) (values : Registers) (rest : List Event), s.events = .reset values :: rest →
    ∃ t, step s = .next t ∧ t.regs = values ∧ t.response = .none ∧ t.events = rest ∧
      ∀ c more, rest = .command c :: more → ∃ u, step t = .next u

/-- 42_update.md R155: CORE does nothing on its own between commands. That a step with no event gives no response is the
model's choice (log entry 2). -/
def Obligations.NoEventNoChange : Prop :=
  ∀ s : State, s.events = [] → step s = .next { s with response := .none }

/-- 10_state.md R27: the response is stored nowhere that an operation could read it: no step depends on it. The field is the
model's own (log entry 1). -/
def Obligations.ResponseIsNeverRead : Prop :=
  ∀ (s : State) (r : Response), step { s with response := r } = step s

/-- The spec's own inference 20_memory.md R59 from R54, R57 and R58: what a program may rely on. After a successful UPDATE every later read of DISP_PORT returns the pattern it
wrote, until the next successful UPDATE or RESET; after EXT.WRITE v, until the next EXT.WRITE or RESET, TOD_PORT is v and
DECODE and UPDATE give what they give in any state whose TOD_PORT is v. -/
def Obligations.WrittenPortsHoldUntilTheNextWrite : Prop :=
  (∀ (n : Nat) (s u t : State) (c : Command) (before rest : List Event),
    s.events = .command c :: before → decodeCommand c = .update → step s = .next u → u.response = .status 0#1 →
    ReachesAvoiding WritesDisplayNext n u t →
    (t.events = .hostRead .dispPort :: rest ∨ t.events = .driverRead :: rest) →
    ∃ v, step t = .next v ∧ v.response = .value u.regs.dispPort) ∧
  (∀ (n : Nat) (s u t : State) (v : Word) (before : List Event),
    s.events = .extWrite v :: before → step s = .next u → ReachesAvoiding WritesTodNext n u t →
    t.regs.todPort = v ∧
    ∀ w : State, w.regs.todPort = v →
      ∃ d dw p pw, exec .decode t = .next d ∧ exec .decode w = .next dw ∧
        exec .update t = .next p ∧ exec .update w = .next pw ∧
        d.response = dw.response ∧ (d.response = .status 0#1 → d.regs.t = dw.regs.t) ∧
        p.response = pw.response ∧ (p.response = .status 0#1 → p.regs.dispPort = pw.regs.dispPort))

/-- Between resets each of T, P and DISP_PORT keeps its reset contents or is meaningful: every step keeps that
(70_reset_and_hazards.md R201 (c), (d); 10_state.md R32; 42_update.md R159). -/
def Obligations.StepKeepsMeaningfulSinceReset : Prop :=
  ∀ (atReset : Registers) (s t : State), MeaningfulSince atReset s → step s = .next t → MeaningfulSince atReset t

/-- The reset state is where that invariant starts: with no event lined up (the model's choice, log entry 2) and whatever the
registers hold (10_state.md R31). -/
def Obligations.ResetIsMeaningfulSinceReset : Prop :=
  MeaningfulSince State.reset.regs State.reset
end

