-- ==== Sys2Proof/Laws/State.lean ====
section
/-! SUPPORT. What each update does to each field, so that no proof unfolds a record update. -/

namespace Sys2Proof.Machine

variable (s : State)

@[simp] theorem writeTodPort_todPort (v : Word) : (writeTodPort v s).regs.todPort = v := rfl
@[simp] theorem writeTodPort_dispPort (v : Word) : (writeTodPort v s).regs.dispPort = s.regs.dispPort := rfl
@[simp] theorem writeTodPort_t (v : Word) : (writeTodPort v s).regs.t = s.regs.t := rfl
@[simp] theorem writeTodPort_p (v : Word) : (writeTodPort v s).regs.p = s.regs.p := rfl
@[simp] theorem writeTodPort_response (v : Word) : (writeTodPort v s).response = s.response := rfl
@[simp] theorem writeTodPort_events (v : Word) : (writeTodPort v s).events = s.events := rfl

@[simp] theorem writeDispPort_todPort (v : Word) : (writeDispPort v s).regs.todPort = s.regs.todPort := rfl
@[simp] theorem writeDispPort_dispPort (v : Word) : (writeDispPort v s).regs.dispPort = v := rfl
@[simp] theorem writeDispPort_t (v : Word) : (writeDispPort v s).regs.t = s.regs.t := rfl
@[simp] theorem writeDispPort_p (v : Word) : (writeDispPort v s).regs.p = s.regs.p := rfl
@[simp] theorem writeDispPort_response (v : Word) : (writeDispPort v s).response = s.response := rfl
@[simp] theorem writeDispPort_events (v : Word) : (writeDispPort v s).events = s.events := rfl

@[simp] theorem writeT_todPort (t : TimeOfDay) : (writeT t s).regs.todPort = s.regs.todPort := rfl
@[simp] theorem writeT_dispPort (t : TimeOfDay) : (writeT t s).regs.dispPort = s.regs.dispPort := rfl
@[simp] theorem writeT_t (t : TimeOfDay) : (writeT t s).regs.t = t := rfl
@[simp] theorem writeT_p (t : TimeOfDay) : (writeT t s).regs.p = s.regs.p := rfl
@[simp] theorem writeT_response (t : TimeOfDay) : (writeT t s).response = s.response := rfl
@[simp] theorem writeT_events (t : TimeOfDay) : (writeT t s).events = s.events := rfl

@[simp] theorem writeP_todPort (v : Word) : (writeP v s).regs.todPort = s.regs.todPort := rfl
@[simp] theorem writeP_dispPort (v : Word) : (writeP v s).regs.dispPort = s.regs.dispPort := rfl
@[simp] theorem writeP_t (v : Word) : (writeP v s).regs.t = s.regs.t := rfl
@[simp] theorem writeP_p (v : Word) : (writeP v s).regs.p = v := rfl
@[simp] theorem writeP_response (v : Word) : (writeP v s).response = s.response := rfl
@[simp] theorem writeP_events (v : Word) : (writeP v s).events = s.events := rfl

@[simp] theorem writeRegisters_regs (r : Registers) : (writeRegisters r s).regs = r := rfl
@[simp] theorem writeRegisters_response (r : Registers) : (writeRegisters r s).response = s.response := rfl
@[simp] theorem writeRegisters_events (r : Registers) : (writeRegisters r s).events = s.events := rfl

@[simp] theorem leaveEvents_regs (es : List Event) : (leaveEvents es s).regs = s.regs := rfl
@[simp] theorem leaveEvents_response (es : List Event) : (leaveEvents es s).response = s.response := rfl
@[simp] theorem leaveEvents_events (es : List Event) : (leaveEvents es s).events = es := rfl

@[simp] theorem respond_regs (r : Response) : (respond r s).regs = s.regs := rfl
@[simp] theorem respond_response (r : Response) : (respond r s).response = r := rfl
@[simp] theorem respond_events (r : Response) : (respond r s).events = s.events := rfl

@[simp] theorem returnOk_regs : (returnOk s).regs = s.regs := rfl
@[simp] theorem returnOk_response : (returnOk s).response = .status 0#1 := rfl
@[simp] theorem returnOk_events : (returnOk s).events = s.events := rfl

@[simp] theorem returnFail_regs (k : ErrorKind) : (returnFail k s).regs = s.regs := rfl
@[simp] theorem returnFail_response (k : ErrorKind) : (returnFail k s).response = .status 1#1 := rfl
@[simp] theorem returnFail_events (k : ErrorKind) : (returnFail k s).events = s.events := rfl

@[simp] theorem returnNone_regs : (returnNone s).regs = s.regs := rfl
@[simp] theorem returnNone_response : (returnNone s).response = .none := rfl
@[simp] theorem returnNone_events : (returnNone s).events = s.events := rfl

end Sys2Proof.Machine
end

