-- ==== Sys2Proof/Laws/Ops.lean ====
section
/-! SUPPORT. One lemma for each shared operation that says all it can do. -/

namespace Sys2Proof.Machine

@[simp] theorem conclude_ok {α : Type} (v : α) (write : α → State → State) (s : State) :
    conclude (.ok v) write s = returnOk (write v s) := rfl

@[simp] theorem conclude_fail {α : Type} (kind : ErrorKind) (write : α → State → State) (s : State) :
    conclude (.fail kind) write s = returnFail kind s := rfl

/-- An operation ends in one of two ways: its write and status 0, or no write and status 1 (00_scope.md R15). -/
theorem conclude_cases {α : Type} (r : OpResult α) (write : α → State → State) (s : State) :
    (∃ v, r = .ok v ∧ conclude r write s = returnOk (write v s)) ∨
    (∃ kind, r = .fail kind ∧ conclude r write s = returnFail kind s) := by
  cases r with
  | ok v => exact .inl ⟨v, rfl, rfl⟩
  | fail kind => exact .inr ⟨kind, rfl, rfl⟩

/-- The arithmetic shift is the floor quotient by a power of two (00_scope.md R13). -/
theorem asr_eq_div (a : Int) (k : Nat) : asr a k = a / 2 ^ k := by
  simp [asr, Int.shiftRight_eq_div_pow]

/-- A sint32 value survives its own narrowing (40_decode.md R108). -/
theorem toInt_sint {n : Int} (lo : -2147483648 ≤ n) (hi : n ≤ 2147483647) : (sint n).toInt = n := by
  simp only [sint, BitVec.toInt_ofInt]
  rw [Int.bmod_eq_of_le] <;> omega

/-- The source's one constraint on the glyph table (10_state.md R25). -/
theorem glyph_one_ne_zero : Config.glyph 1 ≠ 0#7 := by
  intro h
  have h' := congrArg BitVec.toNat h
  have := Config.glyphOnePred.isLt
  simp only [Config.glyph, if_true, BitVec.toNat_ofNat] at h'
  omega

/-- One bit of a glyph in its lane (41_encode.md R124). -/
theorem getLsbD_placeGlyph (g : Glyph) (k i : Nat) (hk : k ≤ 25) :
    (placeGlyph g k).getLsbD i = (decide (k ≤ i ∧ i < k + 7) && g.getLsbD (i - k)) := by
  simp only [placeGlyph, BitVec.getLsbD_shiftLeft, BitVec.getLsbD_setWidth]
  by_cases h1 : i < k
  · simp [h1, show ¬ (k ≤ i ∧ i < k + 7) by omega]
  · by_cases h2 : i < k + 7
    · simp [h1, show k ≤ i ∧ i < k + 7 by omega, show i < 32 by omega, show i - k < 32 by omega]
    · simp [h1, show ¬ (k ≤ i ∧ i < k + 7) by omega, BitVec.getLsbD_of_ge g (i - k) (by omega)]

end Sys2Proof.Machine
end

