-- ==== Sys2Proof/Laws/DisplayEncoder.lean ====
section
/-! SUPPORT. What the encoder's pure functions compute (41_encode.md). -/

namespace Sys2Proof.Machine

theorem checkTime_of_invalid {h m s mer : Int} (bad : TimeInvalid h m s mer) :
    checkTime h m s mer = .fail .invalidTimeValue :=
  dif_pos bad

/-- What the check passes on, with the operands' own values (41_encode.md R120). -/
theorem checkTime_of_valid {h m s mer : Int} (good : ¬ TimeInvalid h m s mer) :
    ∃ c, checkTime h m s mer = .ok c ∧
      c.hours.val = h.toNat ∧ c.minutes.val = m.toNat ∧ c.seconds.val = s.toNat ∧ c.meridiem = mer :=
  ⟨_, dif_neg good, rfl, rfl, rfl, rfl⟩

theorem getLsbD_meridiemFlag (mer : Int) (i : Nat) :
    (meridiemFlag mer).getLsbD i = ((decide (mer = 1) && decide (i = 28)) || (!decide (mer = 1) && decide (i = 29))) := by
  have one : ∀ k, k < 32 → (1#32 <<< k).getLsbD i = decide (i = k) := by
    intro k hk
    simp only [BitVec.getLsbD_shiftLeft, BitVec.getLsbD_one]
    by_cases h : i = k
    · subst h
      simp [hk]
    · by_cases h' : i < k
      · simp [h, h']
      · simp [h, show ¬ (i - k = 0) by omega]
  unfold meridiemFlag
  split
  · rename_i h
    simpa [h] using one 28 (by decide)
  · rename_i h
    have h' : mer ≠ 1 := h
    simpa [h'] using one 29 (by decide)

/-- Every bit of a packed pattern (41_encode.md R124 to R127). -/
theorem getLsbD_packPattern (rom : Digit → Glyph) (c : CheckedTime) (i : Nat) :
    (packPattern rom c).getLsbD i =
      if i < 7 then (rom (minutesOnes c.minutes)).getLsbD i
      else if i < 14 then (rom (minutesTens c.minutes)).getLsbD (i - 7)
      else if i < 21 then (rom (hoursOnes c.hours)).getLsbD (i - 14)
      else if i < 28 then decide (hoursTens c.hours ≠ 0) && (rom (hoursTens c.hours)).getLsbD (i - 21)
      else (decide (c.meridiem = 1) && decide (i = 28)) || (!decide (c.meridiem = 1) && decide (i = 29)) := by
  have tens : ∀ drawn : Word,
      (if hoursTens c.hours ≠ 0 then drawn ||| placeGlyph (rom (hoursTens c.hours)) Config.offHrTens else drawn).getLsbD i =
        (drawn.getLsbD i ||
          (decide (hoursTens c.hours ≠ 0) && (placeGlyph (rom (hoursTens c.hours)) 21).getLsbD i)) := by
    intro drawn
    by_cases h : hoursTens c.hours = 0 <;> simp [h]
  simp only [packPattern, BitVec.getLsbD_or, tens, getLsbD_meridiemFlag]
  rw [getLsbD_placeGlyph _ _ _ (by decide), getLsbD_placeGlyph _ _ _ (by decide),
    getLsbD_placeGlyph _ _ _ (by decide), getLsbD_placeGlyph _ _ _ (by decide)]
  simp only [Config.offMinOnes, Config.offMinTens, Config.offHrOnes]
  split_ifs <;> simp <;> grind

/-- All that `encode(h, m, s, mer)` can answer (41_encode.md R120). -/
theorem encodeTime_cases (rom : Digit → Glyph) (h m s mer : Int) :
    (TimeInvalid h m s mer ∧ encodeTime rom h m s mer = .fail .invalidTimeValue) ∨
    (¬ TimeInvalid h m s mer ∧ ∃ c, checkTime h m s mer = .ok c ∧ encodeTime rom h m s mer = .ok (packPattern rom c) ∧
      c.hours.val = h.toNat ∧ c.minutes.val = m.toNat ∧ c.seconds.val = s.toNat ∧ c.meridiem = mer) := by
  by_cases bad : TimeInvalid h m s mer
  · exact .inl ⟨bad, by simp [encodeTime, checkTime_of_invalid bad]⟩
  · obtain ⟨c, hc, rest⟩ := checkTime_of_valid bad
    exact .inr ⟨bad, c, hc, by simp [encodeTime, hc], rest⟩

end Sys2Proof.Machine
end

