-- ==== Sys2Proof/Laws/Pattern.lean ====
section
/-! SUPPORT. The fields of a packed pattern, from its bits (41_encode.md R124 to R127). -/

namespace Sys2Proof.Safety

open Sys2Proof.Machine

theorem eq_digit {d : Digit} {n : Nat} (h : d.val = n) : d = digit n := by
  apply Fin.ext
  have := d.isLt
  simp [digit]
  omega

theorem minutesOnes_eq_digit (m : Fin 60) : minutesOnes m = digit (m.val % 10) := eq_digit rfl

theorem minutesTens_eq_digit (m : Fin 60) : minutesTens m = digit (m.val / 10) := eq_digit rfl

theorem hoursOnes_eq_digit (h : Fin 13) : hoursOnes h = digit (h.val % 10) := eq_digit rfl

theorem hoursTens_eq_digit (h : Fin 13) : hoursTens h = digit (h.val / 10) := eq_digit rfl

/-- The hours-tens digit is 1 from 10 on and 0 below (41_encode.md R122). -/
theorem hoursTens_cases (h : Fin 13) : (10 ≤ h.val ∧ hoursTens h = 1) ∨ (h.val < 10 ∧ hoursTens h = 0) := by
  have := h.isLt
  by_cases ten : 10 ≤ h.val
  · exact .inl ⟨ten, Fin.ext (by simp [hoursTens]; omega)⟩
  · exact .inr ⟨by omega, Fin.ext (by simp [hoursTens]; omega)⟩

/-- What a packed pattern shows: its own hours, minutes and meridiem (41_encode.md R124 to R127). -/
theorem packPattern_shows (c : CheckedTime) :
    Shows (packPattern readGlyph c) c.hours.val c.minutes.val (!decide (c.meridiem = 1)) where
  min_ones := by
    ext i hi
    rw [BitVec.getElem_extractLsb', getLsbD_packPattern, minutesOnes_eq_digit]
    simp [hi, readGlyph, BitVec.getLsbD_eq_getElem]
  min_tens := by
    ext i hi
    rw [BitVec.getElem_extractLsb', getLsbD_packPattern, minutesTens_eq_digit]
    simp [show 7 + i < 14 by omega, readGlyph, BitVec.getLsbD_eq_getElem hi]
  hr_ones := by
    ext i hi
    rw [BitVec.getElem_extractLsb', getLsbD_packPattern, hoursOnes_eq_digit]
    simp [show ¬ 14 + i < 7 by omega, show ¬ 14 + i < 14 by omega, show 14 + i < 21 by omega, readGlyph,
      BitVec.getLsbD_eq_getElem hi]
  hr_tens := by
    ext i hi
    rw [BitVec.getElem_extractLsb', getLsbD_packPattern]
    rcases hoursTens_cases c.hours with ⟨ten, e⟩ | ⟨ten, e⟩
    · simp [show ¬ 21 + i < 7 by omega, show ¬ 21 + i < 14 by omega, show ¬ 21 + i < 21 by omega,
        show 21 + i < 28 by omega, e, ten, readGlyph, BitVec.getLsbD_eq_getElem hi]
    · simp [show ¬ 21 + i < 7 by omega, show ¬ 21 + i < 14 by omega, show ¬ 21 + i < 21 by omega,
        show 21 + i < 28 by omega, e, show ¬ 10 ≤ c.hours.val by omega]
  am_flag := by rw [getLsbD_packPattern]; simp
  pm_flag := by rw [getLsbD_packPattern]; simp
  reserved := by
    ext i hi
    rw [BitVec.getElem_extractLsb', getLsbD_packPattern]
    simp [show ¬ 30 + i < 7 by omega, show ¬ 30 + i < 14 by omega, show ¬ 30 + i < 21 by omega,
      show ¬ 30 + i < 28 by omega, show ¬ 30 + i = 28 by omega, show ¬ 30 + i = 29 by omega]

end Sys2Proof.Safety
end

