-- ==== Sys2Proof/Laws/PerInstr.lean ====
section
/-! SUPPORT. Statements made per instruction, about the instruction as syntax. -/

namespace Sys2Proof.Laws.EncodeCanonical

/-- The encoder puts zeros on the ports that the command ignores (log entry 11). -/
def Statement (i : Instr) : Prop := (encodeCommand i).canonical = true

theorem idle : Statement .idle := by
  unfold Statement
  decide

theorem decode : Statement .decode := by
  unfold Statement
  decide

theorem encode (h m s mer : Word) : Statement (.encode h m s mer) := by
  simp [Statement, encodeCommand, Command.canonical]

theorem update : Statement .update := by
  unfold Statement
  decide

end Sys2Proof.Laws.EncodeCanonical
end

