-- ==== Sys2Proof/Laws/RtcDecoder.lean ====
section
/-! SUPPORT. What the decoder's pure functions compute (40_decode.md). -/

namespace Sys2Proof.Machine

theorem daySeconds_eq_div (raw : Int) : daySeconds raw = (raw + 8) / 16 := by
  simp [daySeconds, asr_eq_div]

theorem decodeTime_of_invalid {raw : Int} (h : TicksInvalid raw) : decodeTime raw = .fail .outOfRangeInput :=
  if_pos h

theorem decodeTime_of_valid {raw : Int} (h : ¬ TicksInvalid raw) :
    decodeTime raw = .ok (timeOfSeconds (daySeconds raw)) :=
  if_neg h

/-- All that `decode(raw)` can answer (40_decode.md R100). -/
theorem decodeTime_cases (raw : Int) :
    (TicksInvalid raw ∧ decodeTime raw = .fail .outOfRangeInput) ∨
    (¬ TicksInvalid raw ∧ decodeTime raw = .ok (timeOfSeconds (daySeconds raw))) := by
  by_cases h : TicksInvalid raw
  · exact .inl ⟨h, decodeTime_of_invalid h⟩
  · exact .inr ⟨h, decodeTime_of_valid h⟩

theorem twelveHour_range {h24 : Int} (lo : 0 ≤ h24) (hi : h24 ≤ 23) : 1 ≤ twelveHour h24 ∧ twelveHour h24 ≤ 12 := by
  unfold twelveHour
  split
  · omega
  · split <;> omega

theorem hours24_range (dsec : Int) : 0 ≤ hours24 dsec ∧ hours24 dsec ≤ 23 := by
  simp only [hours24, Config.secondsPerHour, Config.hoursPerDay]
  omega

end Sys2Proof.Machine
end

