-- ==== Sys2Proof/Laws/Step.lean ====
section
/-! SUPPORT. All that a step can do. -/

namespace Sys2Proof.Machine

/-- All that UPDATE's straight line can answer: the decoder's failure, or the encoder's answer for the decoded record
(42_update.md R150). -/
theorem updatePattern_cases (rom : Digit → Glyph) (raw : Int) :
    (TicksInvalid raw ∧ updatePattern rom raw = .fail .outOfRangeInput) ∨
    (¬ TicksInvalid raw ∧
      updatePattern rom raw =
        encodeTime rom (timeOfSeconds (daySeconds raw)).hours (timeOfSeconds (daySeconds raw)).minutes
          (timeOfSeconds (daySeconds raw)).seconds (timeOfSeconds (daySeconds raw)).meridiem) := by
  rcases decodeTime_cases raw with ⟨bad, e⟩ | ⟨good, e⟩
  · exact .inl ⟨bad, by simp [updatePattern, e]⟩
  · exact .inr ⟨good, by simp [updatePattern, e]⟩

/-! What each event of another agent leaves. -/

variable (s : State)

@[simp] theorem extWrite_regs (v : Word) : (extWrite v s).regs = { s.regs with todPort := v } := rfl
@[simp] theorem extWrite_response (v : Word) : (extWrite v s).response = .none := rfl
@[simp] theorem extWrite_events (v : Word) : (extWrite v s).events = s.events := rfl

@[simp] theorem hostRead_regs (r : Reg) : (hostRead r s).regs = s.regs := rfl
@[simp] theorem hostRead_response (r : Reg) : (hostRead r s).response = .value (readReg r s) := rfl
@[simp] theorem hostRead_events (r : Reg) : (hostRead r s).events = s.events := rfl

@[simp] theorem driverRead_regs : (driverRead s).regs = s.regs := rfl
@[simp] theorem driverRead_response : (driverRead s).response = .value s.regs.dispPort := rfl
@[simp] theorem driverRead_events : (driverRead s).events = s.events := rfl

@[simp] theorem resetTo_regs (values : Registers) : (resetTo values s).regs = values := rfl
@[simp] theorem resetTo_response (values : Registers) : (resetTo values s).response = .none := rfl
@[simp] theorem resetTo_events (values : Registers) : (resetTo values s).events = s.events := rfl

@[simp] theorem noEvent_regs : (noEvent s).regs = s.regs := rfl
@[simp] theorem noEvent_response : (noEvent s).response = .none := rfl
@[simp] theorem noEvent_events : (noEvent s).events = s.events := rfl

/-- The state an operation ends in: every meaning answers with one (60_exceptions.md R186). -/
def afterInstr : Instr → State → State
  | .idle, s => returnNone s
  | .decode, s => conclude (decodeTime (sampleTod s)) (fun t => writeT (toRegisters t)) s
  | .encode h m sec mer, s => conclude (encodeTime readGlyph h.toInt m.toInt sec.toInt mer.toInt) writeP s
  | .update, s => conclude (updatePattern readGlyph (sampleTod s)) writeDispPort s

theorem exec_eq_next_afterInstr (i : Instr) (s : State) : exec i s = .next (afterInstr i s) := by
  cases i <;> rfl

/-- All that a step can answer, by the event it takes (20_memory.md R57). -/
theorem step_cases {s t : State} (h : step s = .next t) :
    (s.events = [] ∧ t = noEvent s) ∨
    (∃ c rest, s.events = .command c :: rest ∧ t = afterInstr (decodeCommand c) (leaveEvents rest s)) ∨
    (∃ v rest, s.events = .extWrite v :: rest ∧ t = extWrite v (leaveEvents rest s)) ∨
    (∃ r rest, s.events = .hostRead r :: rest ∧ t = hostRead r (leaveEvents rest s)) ∨
    (∃ rest, s.events = .driverRead :: rest ∧ t = driverRead (leaveEvents rest s)) ∨
    (∃ values rest, s.events = .reset values :: rest ∧ t = resetTo values (leaveEvents rest s)) := by
  unfold step at h
  split at h <;> rename_i he
  · exact .inl ⟨he, by simpa using h.symm⟩
  · rw [exec_eq_next_afterInstr] at h
    exact .inr (.inl ⟨_, _, he, by simpa using h.symm⟩)
  · exact .inr (.inr (.inl ⟨_, _, he, by simpa using h.symm⟩))
  · exact .inr (.inr (.inr (.inl ⟨_, _, he, by simpa using h.symm⟩)))
  · exact .inr (.inr (.inr (.inr (.inl ⟨_, he, by simpa using h.symm⟩))))
  · exact .inr (.inr (.inr (.inr (.inr ⟨_, _, he, by simpa using h.symm⟩))))

end Sys2Proof.Machine
end

