-- ==== Sys2Proof/Tests/Slice0.lean ====
section
/-! SUPPORT. Small tests of one operation each, with expected values from spec/95_test_vectors.md or written out from the
rules, and one witness for the hypotheses of every statement that has some. -/

namespace Sys2Proof.Tests

open Sys2Proof.Machine Sys2Proof.Safety

/-- A small state: TOD_PORT and the events as given, the other registers holding values that no operation would write. -/
def machine (tod : Word) (events : List Event) : State where
  regs := { todPort := tod, dispPort := 0xC0000001#32, t := ⟨1, 20, 70, 80, 9⟩, p := 0x80000002#32 }
  response := .none
  events := events

/-- A check on the state an operation ends in. -/
def ends (o : Host.Outcome State Fault Refusal) (check : State → Bool) : Bool :=
  match o with
  | .next t => check t
  | .fault _ => false
  | .refused _ => false

/-- GLYPH_REF of 93_implementation_defined.md U16: general knowledge, not from the source; only to instantiate the glyph table in
tests, as the spec allows. -/
def glyphRef (d : Digit) : Glyph :=
  [0x77#7, 0x24#7, 0x5D#7, 0x6D#7, 0x2E#7, 0x6B#7, 0x7B#7, 0x25#7, 0x7F#7, 0x6F#7].getD d.val 0#7

/-! ## Well-formedness: each check refuses an ill-formed term -/

theorem smoke_canonical_refuses : (Command.mk 1#2 0 0 5 0).canonical = false := by decide

theorem smoke_canonical_accepts : (Command.mk 2#2 9 5 7 1).canonical = true := by decide

theorem smoke_glyph_table_refuses : glyphTableWellFormed (fun _ => 0#7) = false := by decide

theorem smoke_glyph_table_accepts : glyphTableWellFormed glyphRef = true := by decide

/-- No instruction is ill formed (30_encoding.md R72, R74), so this check has nothing to refuse. -/
theorem smoke_every_instruction_well_formed (i : Instr) : i.wellFormed = true := by cases i <;> rfl

/-! ## Decoding, the codes written out from 30_encoding.md R71 -/

theorem decode_idle : decodeTableWord 8 0b00 = some .idle := by decide

theorem decode_decode : decodeTableWord 8 0b01 = some .decode := by decide

theorem decode_encode : decodeTableWord 8 0b10 = some (.encode 0 0 0 0) := by decide

theorem decode_update : decodeTableWord 8 0b11 = some .update := by decide

/-- 41_encode.md R120's example `ENCODE 9, 5, 7, 1`: each port reaches its own operand. -/
theorem decode_encode_operands : decodeCommand ⟨0b10#2, 9, 5, 7, 1⟩ = .encode 9 5 7 1 := by decide

/-- The operand ports are ignored by the other commands (30_encoding.md R72). -/
theorem decode_update_ignores_operands : decodeCommand ⟨0b11#2, 9, 5, 7, 1⟩ = .update := by decide

/-- The table's command runs as the first thing after reset. -/
theorem first_step_after_reset_runs_update : step (State.reset.withFetchWord 8 3) = exec .update State.reset := rfl

/-! ## The operations, on vectors of 95_test_vectors.md -/

/-- VD22: 21:45:30. -/
theorem test_decode_afternoon :
    ends (exec .decode (machine 1253280 [])) (fun t => t.regs.t = ⟨78330, 9, 45, 30, 2⟩ && t.response == .status 0) = true := by
  decide

/-- VD33: -8 + 8 = 0 must not be accepted; T keeps its values. -/
theorem test_decode_check_precedes_add :
    ends (exec .decode (machine (-8) [])) (fun t => t.regs.t = ⟨1, 20, 70, 80, 9⟩ && t.response == .status 1) = true := by
  decide

/-- VE5, with GLYPH_REF. -/
theorem test_encode_packs_lanes : encodeTime glyphRef 9 45 30 2 = .ok 0x201BD76B#32 := by decide

/-- VE16 (least meridiem, PM) and VE24 (seconds 60 is rejected though not displayed). -/
theorem test_encode_leniency_and_check :
    encodeTime glyphRef 1 0 0 (-2147483648) = .ok 0x20093BF7#32 ∧ encodeTime glyphRef 1 0 60 1 = .fail .invalidTimeValue := by
  decide

/-- VU8, with GLYPH_REF: the first PM tick. -/
theorem test_update_noon : updatePattern glyphRef 691192 = .ok 0x24977BF7#32 := by decide

/-- VU14: out of range, the display keeps all its bits. -/
theorem test_update_keeps_display :
    ends (exec .update (machine 1382401 [])) (fun t => t.regs.dispPort = 0xC0000001#32 && t.response == .status 1) = true := by
  decide

/-- VI1. -/
theorem test_idle : exec .idle (machine 5 []) = .next (machine 5 []) := rfl

/-! ## Witnesses: the hypotheses of each statement can be met together, at the boundaries of each clause -/

theorem witness_StepRunsTheIssuedCommand : ∃ (s : State) (c : Command) (rest : List Event) (i : Instr),
    s.events = .command c :: rest ∧ decodeCommand c = i :=
  ⟨machine 0 [.command ⟨2#2, 9, 5, 7, 1⟩, .driverRead], _, _, .encode 9 5 7 1, rfl, rfl⟩

theorem witness_DecodeUndoesEncode : (Instr.encode 9 5 7 (-1)).wellFormed = true := by decide

theorem witness_EncodeUndoesDecodeOnCanonicalCommands :
    (Command.mk 2#2 9 5 7 1).canonical = true ∧ (Command.mk 3#2 0 0 0 0).canonical = true := by decide

/-- Both clauses of DecodeOperation and OutOfRangeInputWritesNothing at the ends of their ranges. -/
theorem witness_DecodeOperation :
    (¬ ((machine 0 []).regs.todPort.toInt < 0 ∨ (machine 0 []).regs.todPort.toInt > 1382400)) ∧
    (¬ ((machine 1382400 []).regs.todPort.toInt < 0 ∨ (machine 1382400 []).regs.todPort.toInt > 1382400)) ∧
    ((machine (-1) []).regs.todPort.toInt < 0 ∨ (machine (-1) []).regs.todPort.toInt > 1382400) ∧
    ((machine 1382401 []).regs.todPort.toInt < 0 ∨ (machine 1382401 []).regs.todPort.toInt > 1382400) := by decide

theorem witness_DecodeStatusIsSignedRangeCheck :
    (machine 1382400 []).regs.todPort = 0x151800#32 ∧ (machine 1382401 []).regs.todPort = 0x151801#32 ∧
    (machine (-1) []).regs.todPort = 0xFFFFFFFF#32 ∧ (machine (-2147483648) []).regs.todPort = 0x80000000#32 ∧
    (machine 2147483647 []).regs.todPort = 0x7FFFFFFF#32 := by decide

/-- The last value that rounds down and the first that rounds up. -/
theorem witness_DecodeRoundsHalvesUp :
    ((machine 7 []).regs.todPort.toInt = 16 * 0 + 7 ∧ ValidTicks (machine 7 []).regs.todPort.toInt) ∧
    ((machine 8 []).regs.todPort.toInt = 16 * 0 + 8 ∧ ValidTicks (machine 8 []).regs.todPort.toInt) := by decide

theorem witness_DecodeTwelveHourTable : ValidTicks (machine 1382400 []).regs.todPort.toInt := by decide

theorem witness_DecodeMinutesAndSeconds : ValidTicks (machine 57592 []).regs.todPort.toInt ∧ (0 : Int) ≤ 86400 := by decide

theorem witness_DecodeMeridiemTurnsAtNoon :
    (ValidTicks (machine 691191 []).regs.todPort.toInt ∧ (machine 691191 []).regs.todPort.toInt ≤ 691191) ∧
    (ValidTicks (machine 691192 []).regs.todPort.toInt ∧ (machine 691192 []).regs.todPort.toInt ≥ 691192) := by decide

theorem witness_DecodeOnWordsIsExact : ValidTicks (machine 1382400 []).regs.todPort.toInt := by decide

theorem witness_DecodeCornerCases :
    (machine 691192 []).regs.todPort = 691192#32 ∧ (machine (-1) []).regs.todPort = BitVec.ofInt 32 (-1) := by decide

theorem witness_DecodeEndOfDay :
    (1382392 ≤ (machine 1382392 []).regs.todPort.toInt ∧ (machine 1382392 []).regs.todPort.toInt ≤ 1382400) ∧
    (1382392 ≤ (machine 1382400 []).regs.todPort.toInt ∧ (machine 1382400 []).regs.todPort.toInt ≤ 1382400) := by decide

theorem witness_DecodeRanges : ValidTicks (machine 0 []).regs.todPort.toInt := by decide

theorem witness_DecodeRoundTripOfSeconds :
    (machine 1382384 []).regs.todPort.toInt = 16 * 86399 ∧ (machine 0 []).regs.todPort.toInt = 16 * 0 := by decide

/-- Two states that differ in all but TOD_PORT, and a successful DECODE. -/
theorem witness_DecodeDependsOnTodPortAlone :
    (machine 8 []).regs.todPort = (resetTo ⟨8, 0, ⟨0, 0, 0, 0, 0⟩, 0⟩ (machine 0 [])).regs.todPort ∧
    ends (exec .decode (machine 8 [])) (fun t => t.response == .status 0) = true := by decide

/-- Both clauses of EncodeOperation and EncodeWritesWholePattern: operands at their least and greatest accepted values, and just
outside. -/
theorem witness_EncodeOperation :
    ValidTime (0#32).toInt (0#32).toInt (0#32).toInt (BitVec.ofInt 32 (-2147483648)).toInt ∧
    ValidTime (12#32).toInt (59#32).toInt (59#32).toInt (2#32).toInt ∧
    ¬ ValidTime (13#32).toInt (59#32).toInt (59#32).toInt (2#32).toInt ∧
    ¬ ValidTime (12#32).toInt (59#32).toInt (59#32).toInt (3#32).toInt := by decide

theorem witness_EncodeLanePlacement :
    ValidTime (9#32).toInt (59#32).toInt (0#32).toInt (1#32).toInt ∧
    ValidTime (10#32).toInt (0#32).toInt (0#32).toInt (1#32).toInt ∧ 6 < 7 := by decide

/-- Hours 9 and 10, minutes 9, hours 0. -/
theorem witness_EncodeLeadingZeroSuppression :
    (ValidTime (9#32).toInt (9#32).toInt (0#32).toInt (1#32).toInt ∧ (9#32).toInt ≤ 9) ∧
    (ValidTime (10#32).toInt (10#32).toInt (0#32).toInt (1#32).toInt ∧ 10 ≤ (10#32).toInt) ∧
    ValidTime (0#32).toInt (0#32).toInt (0#32).toInt (1#32).toInt := by decide

theorem witness_EncodeMeridiemFlags :
    ValidTime (12#32).toInt (0#32).toInt (0#32).toInt (1#32).toInt ∧
    (ValidTime (12#32).toInt (0#32).toInt (0#32).toInt (0#32).toInt ∧ 0#32 ≠ 1#32) := by decide

theorem witness_EncodePatternFitsThirtyBits : ValidTime (12#32).toInt (59#32).toInt (59#32).toInt (2#32).toInt := by decide

theorem witness_EncodePatternIsASum :
    ValidTime (9#32).toInt (0#32).toInt (0#32).toInt (1#32).toInt ∧
    ValidTime (10#32).toInt (0#32).toInt (0#32).toInt (2#32).toInt := by decide

theorem witness_EncodeDependsOnHoursMinutesAndAmOnly :
    (ValidTime (7#32).toInt (42#32).toInt (13#32).toInt (2#32).toInt ∧
      ValidTime (7#32).toInt (42#32).toInt (59#32).toInt (BitVec.ofInt 32 (-1)).toInt ∧
      (2#32 = 1#32 ↔ BitVec.ofInt 32 (-1) = 1#32)) ∧
    ValidTime (7#32).toInt (42#32).toInt 59 (2#32).toInt := by decide

theorem witness_EncodeRejectsEachBadOperandAlone : ValidTime (1#32).toInt (0#32).toInt (0#32).toInt (1#32).toInt := by decide

theorem witness_UpdateComposedResult :
    ValidTicks (machine 0 []).regs.todPort.toInt ∧ ValidTicks (machine 576000 []).regs.todPort.toInt := by decide

theorem witness_OutOfRangeInputWritesNothing :
    ((machine (-1) []).regs.todPort.toInt < 0) ∧ ((machine 1382401 []).regs.todPort.toInt > 1382400) := by decide

/-- Each outcome of UpdateAllOrNothing is met, at the ends of the valid range and just outside. -/
theorem witness_UpdateAllOrNothing :
    (ValidTicks (machine 0 []).regs.todPort.toInt ∧ ValidTicks (machine 1382400 []).regs.todPort.toInt) ∧
    (¬ ValidTicks (machine (-1) []).regs.todPort.toInt ∧ ¬ ValidTicks (machine 1382401 []).regs.todPort.toInt) := by decide

theorem witness_UpdateEncoderStageNeverFails : ∃ d, decodeTime 1382400 = .ok d := ⟨_, rfl⟩

theorem witness_UpdateIsIdempotent :
    (machine 0 []).regs.todPort = (resetTo ⟨0, 1, ⟨0, 0, 0, 0, 0⟩, 2⟩ (machine 3 [])).regs.todPort ∧
    ends (exec .update (machine 0 [])) (fun t => t.response == .status 0) = true := by decide

theorem witness_UpdateEqualsDecodeThenEncode :
    ends (exec .decode (machine 1253280 [])) (fun t => t.response == .status 0) = true := by decide

/-- The first and the last second of one displayed minute; and the first and the last minute boundary. -/
theorem witness_UpdateShowsMinutesNotSeconds :
    (ValidTicks (machine 0 []).regs.todPort.toInt ∧ ValidTicks (machine 951 []).regs.todPort.toInt ∧
      ((machine 0 []).regs.todPort.toInt + 8) / 16 / 60 = ((machine 951 []).regs.todPort.toInt + 8) / 16 / 60) ∧
    (machine 952 []).regs.todPort.toInt = 16 * (60 * 1) - 8 ∧
    (machine 1382392 []).regs.todPort.toInt = 16 * (60 * 1440) - 8 := by decide

theorem witness_UpdateEndOfDayShowsNoon :
    1382392 ≤ (machine 1382392 []).regs.todPort.toInt ∧ (machine 1382392 []).regs.todPort.toInt ≤ 1382400 := by decide

theorem witness_FailureWritesNothing : ∃ t, exec .update (machine (-1) []) = .next t ∧ t.response = .status 1#1 :=
  ⟨_, rfl, by decide⟩

/-- A successful ENCODE's pattern has bit 31 clear, whatever the glyphs are. -/
theorem encoded_pattern_differs (c : CheckedTime) : packPattern readGlyph c ≠ 0x80000002#32 ∧ packPattern readGlyph c ≠ 0xC0000001#32 := by
  have bit : (packPattern readGlyph c).getLsbD 31 = false := by
    rw [getLsbD_packPattern]
    simp
  constructor <;> intro h <;> rw [h] at bit <;> exact absurd bit (by decide)

/-- Each operation that may write a register does write it somewhere. -/
theorem witness_OperationFrames :
    (∃ t, exec .update (machine 0 []) = .next t ∧ t.regs.dispPort ≠ (machine 0 []).regs.dispPort) ∧
    (∃ t, exec .decode (machine 0 []) = .next t ∧ t.regs.t ≠ (machine 0 []).regs.t) ∧
    (∃ t, exec (.encode 9 5 7 1) (machine 0 []) = .next t ∧ t.regs.p ≠ (machine 0 []).regs.p) :=
  ⟨⟨_, rfl, (encoded_pattern_differs ⟨12, 0, 0, 1⟩).2⟩, ⟨_, rfl, by decide⟩,
    ⟨_, rfl, (encoded_pattern_differs ⟨9, 5, 7, 1⟩).1⟩⟩

/-- Each clause: a step that changes TOD_PORT, one that changes DISP_PORT, one that changes T, one that changes P. -/
theorem witness_OnlyTheOwnerWritesARegister :
    (∃ t, step (machine 0 [.extWrite 5]) = .next t ∧ t.regs.todPort ≠ (machine 0 []).regs.todPort) ∧
    (∃ t, step (machine 0 [.command (bareCommand 3)]) = .next t ∧ t.regs.dispPort ≠ (machine 0 []).regs.dispPort) ∧
    (∃ t, step (machine 0 [.command (bareCommand 1)]) = .next t ∧ t.regs.t ≠ (machine 0 []).regs.t) ∧
    (∃ t, step (machine 0 [.command ⟨2, 9, 5, 7, 1⟩]) = .next t ∧ t.regs.p ≠ (machine 0 []).regs.p) :=
  ⟨⟨_, rfl, by decide⟩, ⟨_, rfl, (encoded_pattern_differs ⟨12, 0, 0, 1⟩).2⟩, ⟨_, rfl, by decide⟩,
    ⟨_, rfl, (encoded_pattern_differs ⟨9, 5, 7, 1⟩).1⟩⟩

theorem witness_ExtWriteSetsTodPort : (machine 0 [.extWrite (-1), .driverRead]).events = .extWrite (-1) :: [.driverRead] := rfl

theorem witness_ReadsHaveNoSideEffects :
    (machine 0 [.hostRead .tHr]).events = .hostRead .tHr :: [] ∧ (machine 0 [.driverRead]).events = .driverRead :: [] :=
  ⟨rfl, rfl⟩

/-- A RESET followed at once by a command. -/
theorem witness_ResetLeavesAnyValues :
    (machine 0 [.reset (machine 7 []).regs, .command (bareCommand 3)]).events =
      .reset (machine 7 []).regs :: [.command (bareCommand 3)] := rfl

theorem witness_NoEventNoChange : (machine 0 []).events = [] := rfl

/-- A successful UPDATE, one read in between, then the read of DISP_PORT. -/
theorem witness_WrittenPortsHoldUntilTheNextWrite_display :
    ∃ (s u t : State) (c : Command) (before rest : List Event),
      s.events = .command c :: before ∧ decodeCommand c = .update ∧ step s = .next u ∧ u.response = .status 0#1 ∧
      ReachesAvoiding WritesDisplayNext 1 u t ∧ (t.events = .hostRead .dispPort :: rest ∨ t.events = .driverRead :: rest) := by
  refine ⟨machine 0 [.command (bareCommand 3), .hostRead .p, .driverRead], _, _, _, _, [], rfl, rfl, rfl, rfl,
    ⟨?_, _, rfl, rfl⟩, .inr rfl⟩
  rintro (⟨values, rest, h⟩ | ⟨c, rest, h, -⟩)
  · have h' : Event.hostRead .p :: [.driverRead] = .reset values :: rest := h
    simp at h'
  · have h' : Event.hostRead .p :: [.driverRead] = .command c :: rest := h
    simp at h'

/-- An EXT.WRITE, then a command that leaves TOD_PORT alone. -/
theorem witness_WrittenPortsHoldUntilTheNextWrite_tod :
    ∃ (s u t : State) (v : Word) (before : List Event),
      s.events = .extWrite v :: before ∧ step s = .next u ∧ ReachesAvoiding WritesTodNext 1 u t := by
  refine ⟨machine 0 [.extWrite 8, .command (bareCommand 0)], _, _, _, _, rfl, rfl, ⟨?_, _, rfl, rfl⟩⟩
  rintro (⟨v, rest, h⟩ | ⟨values, rest, h⟩)
  · have h' : Event.command (bareCommand 0) :: [] = .extWrite v :: rest := h
    simp at h'
  · have h' : Event.command (bareCommand 0) :: [] = .reset values :: rest := h
    simp at h'

/-- T as DECODE leaves it at the end of the day satisfies the TimeOfDay invariant. -/
theorem witness_TimeConsistent : TimeConsistent ⟨86400, 12, 0, 0, 2⟩ := by
  constructor <;> decide

/-- The least and the greatest clock time, 1:00 AM and 12:59 PM, and hours 0, which only ENCODE shows. -/
theorem witness_patterns :
    ClockPattern (packPattern readGlyph ⟨1, 0, 0, 1⟩) ∧ ClockPattern (packPattern readGlyph ⟨12, 59, 59, 2⟩) ∧
    EncoderPattern (packPattern readGlyph ⟨0, 0, 0, 0⟩) :=
  ⟨⟨1, 0, _, by decide, by decide, by decide, packPattern_shows ⟨1, 0, 0, 1⟩⟩,
    ⟨12, 59, _, by decide, by decide, by decide, packPattern_shows ⟨12, 59, 59, 2⟩⟩,
    ⟨0, 0, _, by decide, by decide, packPattern_shows ⟨0, 0, 0, 0⟩⟩⟩

/-- A state in which T, P and DISP_PORT are meaningful although none is what the reset left, about to take a step. -/
theorem witness_StepKeepsMeaningfulSinceReset :
    ∃ (atReset : Registers) (s t : State), MeaningfulSince atReset s ∧
      s.regs.t ≠ atReset.t ∧ s.regs.p ≠ atReset.p ∧ s.regs.dispPort ≠ atReset.dispPort ∧ step s = .next t :=
  ⟨(machine 0 []).regs,
    writeDispPort (packPattern readGlyph ⟨12, 59, 59, 2⟩) (writeP (packPattern readGlyph ⟨0, 0, 0, 0⟩)
      (writeT ⟨86400, 12, 0, 0, 2⟩ (machine 0 [.command (bareCommand 3)]))), _,
    ⟨by intro values h; simp [machine] at h, .inr witness_TimeConsistent, .inr witness_patterns.2.2,
      .inr witness_patterns.2.1⟩,
    by decide, (encoded_pattern_differs _).1, (encoded_pattern_differs _).2, rfl⟩

/-- The same invariant where every register still holds its reset contents. -/
theorem witness_StepKeepsMeaningfulSinceReset_unwritten :
    ∃ t, MeaningfulSince (machine 0 []).regs (machine 0 [.command (bareCommand 1)]) ∧
      step (machine 0 [.command (bareCommand 1)]) = .next t :=
  ⟨_, ⟨by intro values h; simp [machine] at h, .inl rfl, .inl rfl, .inl rfl⟩, rfl⟩

end Sys2Proof.Tests
end

section
/-! Frames and the stored response (10_state.md R27, R30): lemmas about `conclude` and `afterInstr`, then the obligations of
10_state.md. -/

namespace Sys2Proof.Machine

/-! ## What an operation leaves unchanged -/

section Frames

variable {α β : Type}

/-- A register that the write leaves alone is left alone on success and on failure (00_scope.md R15). -/
theorem conclude_keeps_register (field : Registers → β) {write : α → State → State} {s : State}
    (keeps : ∀ v, field (write v s).regs = field s.regs) (r : OpResult α) :
    field (conclude r write s).regs = field s.regs := by
  rcases conclude_cases r write s with ⟨v, -, e⟩ | ⟨kind, -, e⟩
  · rw [e, returnOk_regs, keeps]
  · rw [e, returnFail_regs]

theorem conclude_keeps_events {write : α → State → State} {s : State}
    (keeps : ∀ v, (write v s).events = s.events) (r : OpResult α) :
    (conclude r write s).events = s.events := by
  rcases conclude_cases r write s with ⟨v, -, e⟩ | ⟨kind, -, e⟩
  · rw [e, returnOk_events, keeps]
  · rw [e, returnFail_events]

/-- TOD_PORT is written by no operation (10_state.md R30). -/
@[simp] theorem afterInstr_todPort (i : Instr) (s : State) :
    (afterInstr i s).regs.todPort = s.regs.todPort := by
  cases i with
  | idle => rfl
  | decode => exact conclude_keeps_register Registers.todPort (fun _ => writeT_todPort s _) _
  | encode => exact conclude_keeps_register Registers.todPort (writeP_todPort s) _
  | update => exact conclude_keeps_register Registers.todPort (writeDispPort_todPort s) _

@[simp] theorem afterInstr_events (i : Instr) (s : State) : (afterInstr i s).events = s.events := by
  cases i with
  | idle => rfl
  | decode => exact conclude_keeps_events (fun _ => writeT_events s _) _
  | encode => exact conclude_keeps_events (writeP_events s) _
  | update => exact conclude_keeps_events (writeDispPort_events s) _

/-- DISP_PORT is UPDATE's alone (10_state.md R30). -/
theorem afterInstr_dispPort {i : Instr} (notUpdate : i ≠ .update) (s : State) :
    (afterInstr i s).regs.dispPort = s.regs.dispPort := by
  cases i with
  | idle => rfl
  | decode => exact conclude_keeps_register Registers.dispPort (fun _ => writeT_dispPort s _) _
  | encode => exact conclude_keeps_register Registers.dispPort (writeP_dispPort s) _
  | update => exact absurd rfl notUpdate

/-- T is DECODE's alone (10_state.md R30). -/
theorem afterInstr_t {i : Instr} (notDecode : i ≠ .decode) (s : State) :
    (afterInstr i s).regs.t = s.regs.t := by
  cases i with
  | idle => rfl
  | decode => exact absurd rfl notDecode
  | encode => exact conclude_keeps_register Registers.t (writeP_t s) _
  | update => exact conclude_keeps_register Registers.t (writeDispPort_t s) _

/-- P is ENCODE's alone (10_state.md R30). -/
theorem afterInstr_p {i : Instr} (notEncode : ¬ ∃ h m sec mer, i = .encode h m sec mer) (s : State) :
    (afterInstr i s).regs.p = s.regs.p := by
  cases i with
  | idle => rfl
  | decode => exact conclude_keeps_register Registers.p (fun _ => writeT_p s _) _
  | encode h m sec mer => exact absurd ⟨h, m, sec, mer, rfl⟩ notEncode
  | update => exact conclude_keeps_register Registers.p (writeDispPort_p s) _

theorem eq_afterInstr_of_exec {i : Instr} {s t : State} (run : exec i s = .next t) : t = afterInstr i s := by
  simpa [exec_eq_next_afterInstr] using run.symm

end Frames

/-! ## The stored response is overwritten unread -/

section StoredResponse

variable (old : Response) (s : State)

theorem writeT_respond (v : TimeOfDay) : writeT v (respond old s) = respond old (writeT v s) := rfl
theorem writeP_respond (v : Word) : writeP v (respond old s) = respond old (writeP v s) := rfl
theorem writeDispPort_respond (v : Word) : writeDispPort v (respond old s) = respond old (writeDispPort v s) := rfl

/-- An operation answers on success and on failure, so a response stored before it is lost if the write does not read it. -/
theorem conclude_respond {α : Type} {write : α → State → State}
    (blind : ∀ v, write v (respond old s) = respond old (write v s)) (r : OpResult α) :
    conclude r write (respond old s) = conclude r write s := by
  cases r with
  | ok v => rw [conclude_ok, conclude_ok, blind]; rfl
  | fail kind => rfl

/-- No operation reads the response of the one before it (10_state.md R27). -/
theorem afterInstr_respond (i : Instr) : afterInstr i (respond old s) = afterInstr i s := by
  cases i with
  | idle => rfl
  | decode => exact conclude_respond old s (fun _ => writeT_respond old s _) _
  | encode => exact conclude_respond old s (writeP_respond old s) _
  | update => exact conclude_respond old s (writeDispPort_respond old s) _

theorem exec_respond (i : Instr) : exec i (respond old s) = exec i s := by
  rw [exec_eq_next_afterInstr, exec_eq_next_afterInstr, afterInstr_respond]

/-- No step of any agent reads the response of the one before it (10_state.md R27). -/
theorem step_respond : step (respond old s) = step s := by
  obtain ⟨regs, response, events⟩ := s
  cases events with
  | nil => rfl
  | cons event rest =>
    cases event with
    | command c => exact exec_respond old ⟨regs, response, rest⟩ (decodeCommand c)
    | extWrite v => rfl
    | hostRead r => rfl
    | driverRead => rfl
    | reset values => rfl

end StoredResponse

end Sys2Proof.Machine

namespace Sys2Proof.Proofs

open Sys2Proof.Machine Sys2Proof.Safety

/-- Settles O40: the operations' frames, read by contraposition from what `afterInstr` keeps. -/
theorem operationFrames : Obligations.OperationFrames := by
  intro i s t run
  obtain rfl := eq_afterInstr_of_exec run
  refine ⟨afterInstr_todPort i s, afterInstr_events i s, fun changed => ?_, fun changed => ?_, fun changed => ?_⟩
  · by_contra notUpdate
    exact changed (afterInstr_dispPort notUpdate s)
  · by_contra notDecode
    exact changed (afterInstr_t notDecode s)
  · by_contra notEncode
    exact changed (afterInstr_p notEncode s)

/-- Settles O46: the replaced response is that of `respond`, which no step reads. -/
theorem responseIsNeverRead : Obligations.ResponseIsNeverRead :=
  fun s old => step_respond old s

/-- Settles O49: at reset no event is lined up, and each register holds its own reset contents. -/
theorem resetIsMeaningfulSinceReset : Obligations.ResetIsMeaningfulSinceReset where
  no_reset := fun _ => List.not_mem_nil
  time := .inl rfl
  pattern := .inl rfl
  display := .inl rfl

end Sys2Proof.Proofs
end

section
/-! Memory (20_memory.md): what each event's step answers, who writes which register (R58), and what holds until the next
write (R59); then the obligations of 20_memory.md. -/

namespace Sys2Proof.Machine

open Sys2Proof.Safety

/-! ## The step of each event -/

section StepOfEvent

variable {s : State} {rest : List Event}

theorem step_of_command {c : Command} (next : s.events = .command c :: rest) :
    step s = exec (decodeCommand c) (leaveEvents rest s) := by
  simp [step, next]

theorem step_of_extWrite {v : Word} (next : s.events = .extWrite v :: rest) :
    step s = .next (extWrite v (leaveEvents rest s)) := by
  simp [step, next]

theorem step_of_hostRead {r : Reg} (next : s.events = .hostRead r :: rest) :
    step s = .next (hostRead r (leaveEvents rest s)) := by
  simp [step, next]

theorem step_of_driverRead (next : s.events = .driverRead :: rest) :
    step s = .next (driverRead (leaveEvents rest s)) := by
  simp [step, next]

end StepOfEvent

/-! ## When an operation succeeds -/

theorem not_ticksInvalid_iff {raw : Int} : ¬ TicksInvalid raw ↔ ValidTicks raw := by
  simp [TicksInvalid, ValidTicks, Config.rawMin, Config.rawMax]

theorem not_timeInvalid_iff {h m s mer : Int} : ¬ TimeInvalid h m s mer ↔ ValidTime h m s mer := by
  simp only [TimeInvalid, ValidTime, Config.minMax, Config.secMax, Config.hrMaxCheck, Config.merMaxCheck]
  omega

theorem validTicks_of_decodeTime_ok {raw : Int} {v : DecodedTime} (ok : decodeTime raw = .ok v) : ValidTicks raw := by
  rcases decodeTime_cases raw with ⟨-, failed⟩ | ⟨good, -⟩
  · simp [failed] at ok
  · exact not_ticksInvalid_iff.mp good

theorem validTicks_of_updatePattern_ok {rom : Digit → Glyph} {raw : Int} {v : Word}
    (ok : updatePattern rom raw = .ok v) : ValidTicks raw := by
  rcases updatePattern_cases rom raw with ⟨-, failed⟩ | ⟨good, -⟩
  · simp [failed] at ok
  · exact not_ticksInvalid_iff.mp good

theorem validTime_of_encodeTime_ok {rom : Digit → Glyph} {h m s mer : Int} {v : Word}
    (ok : encodeTime rom h m s mer = .ok v) : ValidTime h m s mer := by
  rcases encodeTime_cases rom h m s mer with ⟨-, failed⟩ | ⟨good, -⟩
  · simp [failed] at ok
  · exact not_timeInvalid_iff.mp good

/-! ## What a change of a register says about the step (20_memory.md R58) -/

section Changes

variable {β : Type} {s t : State} {i : Instr}

/-- A failed operation contains no writes (00_scope.md R15), so one that changed a register succeeded. -/
theorem ok_of_conclude_changes {α : Type} (field : Registers → β) {r : OpResult α} {write : α → State → State}
    (changed : field (conclude r write s).regs ≠ field s.regs) : ∃ v, r = .ok v := by
  rcases conclude_cases r write s with ⟨v, ok, -⟩ | ⟨kind, -, failed⟩
  · exact ⟨v, ok⟩
  · rw [failed, returnFail_regs] at changed
    exact absurd rfl changed

theorem afterInstr_changes_dispPort (changed : (afterInstr i s).regs.dispPort ≠ s.regs.dispPort) :
    i = .update ∧ ValidTicks s.regs.todPort.toInt := by
  have isUpdate : i = .update := by
    by_contra notUpdate
    exact changed (afterInstr_dispPort notUpdate s)
  subst isUpdate
  obtain ⟨v, ok⟩ := ok_of_conclude_changes Registers.dispPort changed
  exact ⟨rfl, validTicks_of_updatePattern_ok ok⟩

theorem afterInstr_changes_t (changed : (afterInstr i s).regs.t ≠ s.regs.t) :
    i = .decode ∧ ValidTicks s.regs.todPort.toInt := by
  have isDecode : i = .decode := by
    by_contra notDecode
    exact changed (afterInstr_t notDecode s)
  subst isDecode
  obtain ⟨v, ok⟩ := ok_of_conclude_changes Registers.t changed
  exact ⟨rfl, validTicks_of_decodeTime_ok ok⟩

theorem afterInstr_changes_p (changed : (afterInstr i s).regs.p ≠ s.regs.p) :
    ∃ h m sec mer, i = .encode h m sec mer ∧ ValidTime h.toInt m.toInt sec.toInt mer.toInt := by
  have isEncode : ∃ h m sec mer, i = .encode h m sec mer := by
    by_contra notEncode
    exact changed (afterInstr_p notEncode s)
  obtain ⟨h, m, sec, mer, rfl⟩ := isEncode
  obtain ⟨v, ok⟩ := ok_of_conclude_changes Registers.p changed
  exact ⟨h, m, sec, mer, rfl, validTime_of_encodeTime_ok ok⟩

/-- Reads and a step with no event write nothing, so a step that changes a register is a RESET, an EXT.WRITE that changes
it, or a command whose operation changes it. -/
theorem step_changes_register (field : Registers → β) (run : step s = .next t) (changed : field t.regs ≠ field s.regs) :
    (∃ values rest, s.events = .reset values :: rest) ∨
    (∃ v rest, s.events = .extWrite v :: rest ∧ field { s.regs with todPort := v } ≠ field s.regs) ∨
    (∃ c rest, s.events = .command c :: rest ∧
      field (afterInstr (decodeCommand c) (leaveEvents rest s)).regs ≠ field s.regs) := by
  rcases step_cases run with ⟨-, rfl⟩ | ⟨c, rest, next, rfl⟩ | ⟨v, rest, next, rfl⟩ | ⟨r, rest, -, rfl⟩ |
    ⟨rest, -, rfl⟩ | ⟨values, rest, next, -⟩
  · exact absurd rfl changed
  · exact .inr (.inr ⟨c, rest, next, changed⟩)
  · exact .inr (.inl ⟨v, rest, next, changed⟩)
  · exact absurd rfl changed
  · exact absurd rfl changed
  · exact .inl ⟨values, rest, next⟩

theorem step_changes_todPort (run : step s = .next t) (changed : t.regs.todPort ≠ s.regs.todPort) : WritesTodNext s := by
  rcases step_changes_register Registers.todPort run changed with reset | ⟨v, rest, next, -⟩ | ⟨c, rest, -, byCommand⟩
  · exact .inr reset
  · exact .inl ⟨v, rest, next⟩
  · exact absurd (afterInstr_todPort _ _) byCommand

theorem step_changes_dispPort (run : step s = .next t) (changed : t.regs.dispPort ≠ s.regs.dispPort) :
    WritesDisplayNext s := by
  rcases step_changes_register Registers.dispPort run changed with reset | ⟨v, rest, -, byExt⟩ | ⟨c, rest, next, byCommand⟩
  · exact .inl reset
  · exact absurd rfl byExt
  · obtain ⟨isUpdate, valid⟩ := afterInstr_changes_dispPort byCommand
    exact .inr ⟨c, rest, next, isUpdate, valid⟩

theorem step_changes_t (run : step s = .next t) (changed : t.regs.t ≠ s.regs.t) :
    (∃ values rest, s.events = .reset values :: rest) ∨
    (∃ c rest, s.events = .command c :: rest ∧ decodeCommand c = .decode ∧ ValidTicks s.regs.todPort.toInt) := by
  rcases step_changes_register Registers.t run changed with reset | ⟨v, rest, -, byExt⟩ | ⟨c, rest, next, byCommand⟩
  · exact .inl reset
  · exact absurd rfl byExt
  · obtain ⟨isDecode, valid⟩ := afterInstr_changes_t byCommand
    exact .inr ⟨c, rest, next, isDecode, valid⟩

theorem step_changes_p (run : step s = .next t) (changed : t.regs.p ≠ s.regs.p) :
    (∃ values rest, s.events = .reset values :: rest) ∨
    (∃ c rest h m sec mer, s.events = .command c :: rest ∧ decodeCommand c = .encode h m sec mer ∧
      ValidTime h.toInt m.toInt sec.toInt mer.toInt) := by
  rcases step_changes_register Registers.p run changed with reset | ⟨v, rest, -, byExt⟩ | ⟨c, rest, next, byCommand⟩
  · exact .inl reset
  · exact absurd rfl byExt
  · obtain ⟨h, m, sec, mer, isEncode, valid⟩ := afterInstr_changes_p byCommand
    exact .inr ⟨c, rest, h, m, sec, mer, next, isEncode, valid⟩

end Changes

/-! ## What holds until the next write (20_memory.md R59) -/

section Holds

variable {n : Nat} {s t : State}

/-- A register that only the steps described by `bad` change keeps its value over any run without them. -/
theorem reachesAvoiding_keeps_register {β : Type} {bad : State → Prop} (field : Registers → β)
    (changedOnlyByBad : ∀ {s t}, step s = .next t → field t.regs ≠ field s.regs → bad s)
    (reaches : ReachesAvoiding bad n s t) : field t.regs = field s.regs := by
  induction n generalizing s with
  | zero => rw [show s = t from reaches]
  | succ n ih =>
    obtain ⟨notBad, u, run, later⟩ := reaches
    have unchanged : field u.regs = field s.regs := by
      by_contra changed
      exact notBad (changedOnlyByBad run changed)
    rw [ih later, unchanged]

/-- Either reader of DISP_PORT is answered with what it holds (20_memory.md R55). -/
theorem step_answers_dispPort {rest : List Event}
    (read : t.events = .hostRead .dispPort :: rest ∨ t.events = .driverRead :: rest) :
    ∃ v, step t = .next v ∧ v.response = .value t.regs.dispPort := by
  rcases read with byHost | byDriver
  · exact ⟨_, step_of_hostRead byHost, rfl⟩
  · exact ⟨_, step_of_driverRead byDriver, rfl⟩

/-- An operation's status and, on success, its destination depend on the computed result alone, where the write sets the
destination alike in both states. -/
theorem conclude_agrees {α β : Type} (field : Registers → β) {write : α → State → State}
    (sameWrite : ∀ v, field (write v s).regs = field (write v t).regs) (r : OpResult α) :
    (conclude r write s).response = (conclude r write t).response ∧
    ((conclude r write s).response = .status 0#1 →
      field (conclude r write s).regs = field (conclude r write t).regs) := by
  cases r with
  | ok v => exact ⟨rfl, fun _ => sameWrite v⟩
  | fail kind => exact ⟨rfl, fun ok => by simp at ok⟩

theorem sampleTod_eq_of_todPort_eq (same : s.regs.todPort = t.regs.todPort) : sampleTod s = sampleTod t :=
  congrArg BitVec.toInt same

/-- DECODE's status and results depend on TOD_PORT alone (20_memory.md R54). -/
theorem afterInstr_decode_agrees (same : s.regs.todPort = t.regs.todPort) :
    (afterInstr .decode s).response = (afterInstr .decode t).response ∧
    ((afterInstr .decode s).response = .status 0#1 → (afterInstr .decode s).regs.t = (afterInstr .decode t).regs.t) := by
  simp only [afterInstr, sampleTod_eq_of_todPort_eq same]
  exact conclude_agrees Registers.t (fun _ => by simp only [writeT_t]) _

/-- UPDATE's status and pattern depend on TOD_PORT alone (20_memory.md R54). -/
theorem afterInstr_update_agrees (same : s.regs.todPort = t.regs.todPort) :
    (afterInstr .update s).response = (afterInstr .update t).response ∧
    ((afterInstr .update s).response = .status 0#1 →
      (afterInstr .update s).regs.dispPort = (afterInstr .update t).regs.dispPort) := by
  simp only [afterInstr, sampleTod_eq_of_todPort_eq same]
  exact conclude_agrees Registers.dispPort (fun _ => by simp only [writeDispPort_dispPort]) _

end Holds

end Sys2Proof.Machine

namespace Sys2Proof.Proofs

open Sys2Proof.Machine Sys2Proof.Safety

/-- Settles O41: one lemma per register about the step that changes it. -/
theorem onlyTheOwnerWritesARegister : Obligations.OnlyTheOwnerWritesARegister :=
  fun _ _ run => ⟨step_changes_todPort run, step_changes_dispPort run, step_changes_t run, step_changes_p run⟩

/-- Settles O47: over a run without its writers each port keeps its value; the reads and operations at the end of the run
see nothing else. -/
theorem writtenPortsHoldUntilTheNextWrite : Obligations.WrittenPortsHoldUntilTheNextWrite := by
  constructor
  · intro n s u t c before rest _ _ _ _ reaches read
    have held : t.regs.dispPort = u.regs.dispPort :=
      reachesAvoiding_keeps_register Registers.dispPort step_changes_dispPort reaches
    exact held ▸ step_answers_dispPort read
  · intro n s u t v before next run reaches
    have written : u.regs.todPort = v := by
      obtain rfl : extWrite v (leaveEvents before s) = u := by simpa [step_of_extWrite next] using run
      rfl
    have held : t.regs.todPort = v :=
      (reachesAvoiding_keeps_register Registers.todPort step_changes_todPort reaches).trans written
    refine ⟨held, fun w hw => ?_⟩
    have same : t.regs.todPort = w.regs.todPort := held.trans hw.symm
    obtain ⟨decodeStatus, decodedTime⟩ := afterInstr_decode_agrees same
    obtain ⟨updateStatus, shownPattern⟩ := afterInstr_update_agrees same
    exact ⟨_, _, _, _, exec_eq_next_afterInstr _ _, exec_eq_next_afterInstr _ _, exec_eq_next_afterInstr _ _,
      exec_eq_next_afterInstr _ _, decodeStatus, decodedTime, updateStatus, shownPattern⟩

/-- Settles O1: the command's step, with the decoded instruction named. -/
theorem stepRunsTheIssuedCommand : Obligations.StepRunsTheIssuedCommand := by
  rintro s c rest i next rfl
  exact step_of_command next

/-- Settles O42: the event's step, written out field by field. -/
theorem extWriteSetsTodPort : Obligations.ExtWriteSetsTodPort :=
  fun _ _ _ next => step_of_extWrite next

/-- Settles O43: the value answered is that of `readReg`, register by register. -/
theorem readsHaveNoSideEffects : Obligations.ReadsHaveNoSideEffects := by
  constructor
  · intro s r rest next
    refine ⟨readReg r s, step_of_hostRead next, ?_⟩
    cases r <;> rfl
  · exact fun s rest next => step_of_driverRead next

end Sys2Proof.Proofs
end

section
/-! Encoding (30_encoding.md): which operation each command code selects (R71), and which presentations the encoder makes;
then the obligations of 30_encoding.md. -/

namespace Sys2Proof

/-! ## The decoder, one equation for each code (30_encoding.md R71) -/

section Codes

variable (h m sec mer : Word)

@[simp] theorem decodeCommand_code_idle : decodeCommand ⟨0#2, h, m, sec, mer⟩ = .idle := rfl
@[simp] theorem decodeCommand_code_decode : decodeCommand ⟨1#2, h, m, sec, mer⟩ = .decode := rfl
@[simp] theorem decodeCommand_code_encode : decodeCommand ⟨2#2, h, m, sec, mer⟩ = .encode h m sec mer := rfl
@[simp] theorem decodeCommand_code_update : decodeCommand ⟨3#2, h, m, sec, mer⟩ = .update := rfl

end Codes

theorem cmdCode_cases (code : CmdCode) : code = 0#2 ∨ code = 1#2 ∨ code = 2#2 ∨ code = 3#2 := by
  bv_omega

/-! ## The encoder: a right inverse of the decoder, onto the canonical presentations -/

/-- No instruction is ill formed (30_encoding.md R74), so the round trip needs no hypothesis. -/
@[simp] theorem decodeCommand_encodeCommand (i : Instr) : decodeCommand (encodeCommand i) = i := by
  cases i with
  | idle => exact decodeCommand_code_idle 0 0 0 0
  | decode => exact decodeCommand_code_decode 0 0 0 0
  | encode h m sec mer => exact decodeCommand_code_encode h m sec mer
  | update => exact decodeCommand_code_update 0 0 0 0

theorem canonical_encodeCommand (i : Instr) : (encodeCommand i).canonical = true := by
  cases i with
  | idle => exact Laws.EncodeCanonical.idle
  | decode => exact Laws.EncodeCanonical.decode
  | encode h m sec mer => exact Laws.EncodeCanonical.encode h m sec mer
  | update => exact Laws.EncodeCanonical.update

theorem Command.canonical_iff (c : Command) : c.canonical = true ↔ c.cmd = 2#2 ∨ c = bareCommand c.cmd := by
  obtain ⟨code, h, m, sec, mer⟩ := c
  simp [Command.canonical, bareCommand, and_assoc]

/-- The canonical presentations are exactly those that the encoder makes (log entry 11). -/
theorem canonical_iff_exists_encodeCommand (c : Command) : c.canonical = true ↔ ∃ i, encodeCommand i = c := by
  constructor
  · intro canonical
    rcases (Command.canonical_iff c).mp canonical with isEncode | bare
    · exact ⟨.encode c.opHours c.opMinutes c.opSeconds c.opMeridiem, by rw [encodeCommand, ← isEncode]⟩
    · rw [bare]
      rcases cmdCode_cases c.cmd with code | code | code | code <;> rw [code]
      · exact ⟨.idle, rfl⟩
      · exact ⟨.decode, rfl⟩
      · exact ⟨.encode 0 0 0 0, rfl⟩
      · exact ⟨.update, rfl⟩
  · rintro ⟨i, rfl⟩
    exact canonical_encodeCommand i

end Sys2Proof

namespace Sys2Proof.Proofs

/-- Settles O2: the decoder's equation for each of the four codes. -/
theorem fourCodesSelectFourOperations : Obligations.FourCodesSelectFourOperations :=
  fun h m sec mer => ⟨decodeCommand_code_idle h m sec mer, decodeCommand_code_decode h m sec mer,
    decodeCommand_code_encode h m sec mer, decodeCommand_code_update h m sec mer⟩

/-- Settles O3: the round trip holds of every instruction. -/
theorem decodeUndoesEncode : Obligations.DecodeUndoesEncode :=
  fun i _ => decodeCommand_encodeCommand i

/-- Settles O4: a canonical presentation is the encoding of some instruction, and decoding gives that instruction back. -/
theorem encodeUndoesDecodeOnCanonicalCommands : Obligations.EncodeUndoesDecodeOnCanonicalCommands := by
  intro c canonical
  obtain ⟨i, rfl⟩ := (canonical_iff_exists_encodeCommand c).mp canonical
  rw [decodeCommand_encodeCommand]

end Sys2Proof.Proofs
end

section
/-! DECODE (40_decode.md): the ranges of its arithmetic, the T registers it leaves, the same arithmetic on 32-bit words, and
what UPDATE makes of the decoded record; then the obligations of 40_decode.md. -/

namespace Sys2Proof.Machine

open Sys2Proof.Safety

/-! ## The decoder's arithmetic (40_decode.md R102 to R105) -/

section Arithmetic

variable {raw : Int}

theorem daySeconds_range (valid : ValidTicks raw) : 0 ≤ daySeconds raw ∧ daySeconds raw ≤ 86400 := by
  rw [daySeconds_eq_div]
  omega

/-- The last nine tick counts round up to the end of the day (40_decode.md R110). -/
theorem daySeconds_end_of_day (lo : 1382392 ≤ raw) (hi : raw ≤ 1382400) : daySeconds raw = 86400 := by
  rw [daySeconds_eq_div]
  omega

theorem minutesOf_range (dsec : Int) : 0 ≤ minutesOf dsec ∧ minutesOf dsec ≤ 59 := by
  simp only [minutesOf, Config.secondsPerHour, Config.secondsPerMinute]
  omega

theorem secondsOf_range (dsec : Int) : 0 ≤ secondsOf dsec ∧ secondsOf dsec ≤ 59 := by
  simp only [secondsOf, Config.secondsPerMinute]
  omega

theorem meridiemOf_cases (dsec : Int) :
    (43200 ≤ dsec ∧ meridiemOf dsec = 2) ∨ (dsec < 43200 ∧ meridiemOf dsec = 1) := by
  rcases le_or_gt 43200 dsec with pm | am
  · exact .inl ⟨pm, if_pos pm⟩
  · exact .inr ⟨am, if_neg (not_le.mpr am)⟩

theorem twelveHour_eq_twelve_iff {h24 : Int} (hi : h24 ≤ 23) : twelveHour h24 = 12 ↔ h24 = 0 ∨ h24 = 12 := by
  unfold twelveHour
  split
  · simp_all
  · split <;> omega

/-- The table of 40_decode.md R103. -/
theorem getElem?_twelveHour_table {h24 : Int} (lo : 0 ≤ h24) (hi : h24 ≤ 23) :
    [12, 1, 2, 3, 4, 5, 6, 7, 8, 9, 10, 11, 12, 1, 2, 3, 4, 5, 6, 7, 8, 9, 10, 11][h24.toNat]? =
      some (twelveHour h24) := by
  have table : ∀ n : Nat, n < 24 → [12, 1, 2, 3, 4, 5, 6, 7, 8, 9, 10, 11, 12, 1, 2, 3, 4, 5, 6, 7, 8, 9, 10, 11][n]? =
      some (twelveHour (n : Int)) := by decide
  simpa [lo] using table h24.toNat (by omega)

/-- The mod 24 matters for the end of the day only (40_decode.md R103). -/
theorem hours24_ne_div_iff {dsec : Int} (lo : 0 ≤ dsec) (hi : dsec ≤ 86400) :
    dsec / 3600 ≠ hours24 dsec ↔ dsec = 86400 := by
  simp only [hours24, Config.secondsPerHour, Config.hoursPerDay]
  omega

end Arithmetic

/-! ## The five T registers (40_decode.md R106, 10_state.md R32) -/

/-- What a successful DECODE of `raw` writes to T (40_decode.md R100). -/
def decodedT (raw : Int) : TimeOfDay := toRegisters (timeOfSeconds (daySeconds raw))

section DecodedT

variable {raw : Int}

theorem decodedT_dsec (valid : ValidTicks raw) : (decodedT raw).dsec.toInt = daySeconds raw := by
  have := daySeconds_range valid
  exact toInt_sint (n := daySeconds raw) (by omega) (by omega)

@[simp] theorem decodedT_hr (raw : Int) : (decodedT raw).hr.toInt = twelveHour (hours24 (daySeconds raw)) := by
  obtain ⟨lo, hi⟩ := hours24_range (daySeconds raw)
  have := twelveHour_range lo hi
  exact toInt_sint (n := twelveHour (hours24 (daySeconds raw))) (by omega) (by omega)

@[simp] theorem decodedT_min (raw : Int) : (decodedT raw).min.toInt = minutesOf (daySeconds raw) := by
  have := minutesOf_range (daySeconds raw)
  exact toInt_sint (n := minutesOf (daySeconds raw)) (by omega) (by omega)

@[simp] theorem decodedT_sec (raw : Int) : (decodedT raw).sec.toInt = secondsOf (daySeconds raw) := by
  have := secondsOf_range (daySeconds raw)
  exact toInt_sint (n := secondsOf (daySeconds raw)) (by omega) (by omega)

theorem decodedT_mer (raw : Int) : (decodedT raw).mer = sint (meridiemOf (daySeconds raw)) := rfl

@[simp] theorem decodedT_mer_toInt (raw : Int) : (decodedT raw).mer.toInt = meridiemOf (daySeconds raw) := by
  rcases meridiemOf_cases (daySeconds raw) with ⟨-, mer⟩ | ⟨-, mer⟩ <;> rw [decodedT_mer, mer] <;> rfl

theorem timeConsistent_decodedT (valid : ValidTicks raw) : TimeConsistent (decodedT raw) where
  dsec_range := by rw [decodedT_dsec valid]; exact daySeconds_range valid
  hr := by rw [decodedT_dsec valid]; exact decodedT_hr raw
  min := by rw [decodedT_dsec valid]; exact decodedT_min raw
  sec := by rw [decodedT_dsec valid]; exact decodedT_sec raw
  mer := by rw [decodedT_dsec valid]; exact decodedT_mer_toInt raw

theorem decodedT_end_of_day (lo : 1382392 ≤ raw) (hi : raw ≤ 1382400) :
    decodedT raw = ⟨86400#32, 12#32, 0#32, 0#32, 2#32⟩ := by
  rw [decodedT, daySeconds_end_of_day lo hi]
  decide

end DecodedT

/-! ## What DECODE ends in (40_decode.md R100) -/

theorem statusOk_ne_statusFail : Response.status 0#1 ≠ .status 1#1 := by decide

section ExecDecode

variable {s : State}

theorem exec_decode_of_valid (valid : ValidTicks s.regs.todPort.toInt) :
    exec .decode s = .next (returnOk (writeT (decodedT s.regs.todPort.toInt) s)) := by
  rw [exec_eq_next_afterInstr, afterInstr, sampleTod, decodeTime_of_valid (not_ticksInvalid_iff.mpr valid), conclude_ok]
  rfl

/-- One row of a table of DECODE's results: a raw value and the five T registers it decodes to. -/
theorem exec_decode_of_todPort {raw : Word} {t : TimeOfDay} (holds : s.regs.todPort = raw) (valid : ValidTicks raw.toInt)
    (gives : decodedT raw.toInt = t) :
    exec .decode s = .next { s with regs := { s.regs with t := t }, response := .status 0#1 } := by
  subst holds gives
  exact exec_decode_of_valid valid

theorem exec_decode_of_invalid (invalid : ¬ ValidTicks s.regs.todPort.toInt) :
    exec .decode s = .next (returnFail .outOfRangeInput s) := by
  have ticksInvalid : TicksInvalid s.regs.todPort.toInt := by
    by_contra good
    exact invalid (not_ticksInvalid_iff.mp good)
  rw [exec_eq_next_afterInstr, afterInstr, sampleTod, decodeTime_of_invalid ticksInvalid, conclude_fail]

/-- An operation that overwrites its destination and reads neither it nor the response ends, done twice, where it ended
at first. -/
theorem conclude_conclude {α : Type} {write : α → State → State}
    (blind : ∀ old u v, write v (respond old u) = respond old (write v u))
    (overwrites : ∀ v, write v (write v s) = write v s) (r : OpResult α) :
    conclude r write (conclude r write s) = conclude r write s := by
  cases r with
  | ok v =>
    calc conclude (.ok v) write (respond (.status 0#1) (write v s))
      _ = conclude (.ok v) write (write v s) := conclude_respond _ _ (blind _ _) _
      _ = conclude (.ok v) write s := by rw [conclude_ok, conclude_ok, overwrites]
  | fail kind => rfl

/-- A second DECODE of the same TOD_PORT changes nothing (40_decode.md R111 (f)). -/
theorem afterInstr_decode_decode (s : State) :
    afterInstr .decode (afterInstr .decode s) = afterInstr .decode s := by
  have sameSample : sampleTod (afterInstr .decode s) = sampleTod s :=
    sampleTod_eq_of_todPort_eq (afterInstr_todPort .decode s)
  calc afterInstr .decode (afterInstr .decode s)
    _ = conclude (decodeTime (sampleTod s)) (fun t => writeT (toRegisters t)) (afterInstr .decode s) := by
      rw [← sameSample, afterInstr]
    _ = afterInstr .decode s :=
      conclude_conclude (write := fun t => writeT (toRegisters t)) (fun old u _ => writeT_respond old u _)
        (fun _ => rfl) _

end ExecDecode

/-! ## The same arithmetic on wrapping 32-bit words (40_decode.md R108)

Each word operation of R100, applied to narrowed integers in its range, is the narrowing of the exact operation. -/

section Words

variable {a b : Int}

theorem sint_toInt (w : Word) : sint w.toInt = w := BitVec.ofInt_toInt

theorem sint_inj (alo : -2147483648 ≤ a) (ahi : a ≤ 2147483647) (blo : -2147483648 ≤ b) (bhi : b ≤ 2147483647) :
    sint a = sint b ↔ a = b := by
  rw [← BitVec.toInt_inj, toInt_sint alo ahi, toInt_sint blo bhi]

theorem sint_add (a b : Int) : sint (a + b) = sint a + sint b := BitVec.ofInt_add a b

theorem sint_sub (a b : Int) : sint (a - b) = sint a - sint b := by
  rw [Int.sub_eq_add_neg, sint_add, BitVec.sub_eq_add_neg]
  simp [sint, BitVec.ofInt_neg]

theorem sshiftRight_sint (lo : -2147483648 ≤ a) (hi : a ≤ 2147483647) (k : Nat) :
    (sint a).sshiftRight k = sint (asr a k) := by
  rw [BitVec.sshiftRight_eq, toInt_sint lo hi]
  rfl

theorem sdiv_sint (alo : 0 ≤ a) (ahi : a ≤ 2147483647) (blo : 0 < b) (bhi : b ≤ 2147483647) :
    (sint a).sdiv (sint b) = sint (a / b) := by
  apply BitVec.eq_of_toInt_eq
  rw [BitVec.toInt_sdiv, toInt_sint (by omega) ahi, toInt_sint (by omega) bhi, Int.tdiv_eq_ediv_of_nonneg alo, sint,
    BitVec.toInt_ofInt]

theorem srem_sint (alo : 0 ≤ a) (ahi : a ≤ 2147483647) (blo : 0 < b) (bhi : b ≤ 2147483647) :
    (sint a).srem (sint b) = sint (a % b) := by
  have lo := Int.emod_nonneg a blo.ne'
  have hi := Int.emod_lt_of_pos a blo
  apply BitVec.eq_of_toInt_eq
  rw [BitVec.toInt_srem, toInt_sint (by omega) ahi, toInt_sint (by omega) bhi, Int.tmod_eq_emod_of_nonneg alo,
    toInt_sint (by omega) (by omega)]

theorem slt_sint (alo : -2147483648 ≤ a) (ahi : a ≤ 2147483647) (blo : -2147483648 ≤ b) (bhi : b ≤ 2147483647) :
    (sint a).slt (sint b) = decide (a < b) := by
  rw [BitVec.slt, toInt_sint alo ahi, toInt_sint blo bhi]

theorem sle_sint (alo : -2147483648 ≤ a) (ahi : a ≤ 2147483647) (blo : -2147483648 ≤ b) (bhi : b ≤ 2147483647) :
    (sint a).sle (sint b) = decide (a ≤ b) := by
  rw [BitVec.sle, toInt_sint alo ahi, toInt_sint blo bhi]

variable {w : Word}

theorem sshiftRight_add_eight (valid : ValidTicks w.toInt) :
    (w + 8#32).sshiftRight 4 = sint (daySeconds w.toInt) := by
  have biased : w + 8#32 = sint (w.toInt + 8) := by
    rw [sint_add, sint_toInt]
    rfl
  rw [biased, sshiftRight_sint (by omega) (by omega)]
  rfl

/-- A valid raw value is non-negative, so the arithmetic shift is the logical one (40_decode.md R102). -/
theorem sshiftRight_add_eight_eq_ushiftRight (valid : ValidTicks w.toInt) :
    (w + 8#32).sshiftRight 4 = (w + 8#32) >>> 4 := by
  apply BitVec.sshiftRight_eq_of_msb_false
  rw [BitVec.msb_eq_false_iff_two_mul_lt]
  have := BitVec.toInt_eq_toNat_cond w
  bv_omega

end Words

section WordDecode

variable {d h24 : Int}

theorem srem_sdiv_eq_hours24 (lo : 0 ≤ d) (hi : d ≤ 86400) :
    ((sint d).sdiv 3600#32).srem 24#32 = sint (hours24 d) := by
  change ((sint d).sdiv (sint 3600)).srem (sint 24) = sint (d / 3600 % 24)
  rw [sdiv_sint (by omega) (by omega) (by omega) (by omega), srem_sint (by omega) (by omega) (by omega) (by omega)]

theorem ite_slt_eq_twelveHour (lo : 0 ≤ h24) (hi : h24 ≤ 23) :
    (if sint h24 = 0#32 then 12#32 else if (12#32).slt (sint h24) then sint h24 - 12#32 else sint h24) =
      sint (twelveHour h24) := by
  change (if sint h24 = sint 0 then sint 12
    else if (sint 12).slt (sint h24) then sint h24 - sint 12 else sint h24) = _
  have midnight : sint h24 = sint 0 ↔ h24 = 0 := sint_inj (by omega) (by omega) (by omega) (by omega)
  have afternoon : (sint 12).slt (sint h24) = decide (12 < h24) :=
    slt_sint (by omega) (by omega) (by omega) (by omega)
  simp only [midnight, afternoon, ← sint_sub, decide_eq_true_eq, twelveHour, apply_ite sint, gt_iff_lt]

theorem sdiv_srem_eq_minutesOf (lo : 0 ≤ d) (hi : d ≤ 86400) :
    ((sint d).srem 3600#32).sdiv 60#32 = sint (minutesOf d) := by
  change ((sint d).srem (sint 3600)).sdiv (sint 60) = sint (d % 3600 / 60)
  rw [srem_sint (by omega) (by omega) (by omega) (by omega), sdiv_sint (by omega) (by omega) (by omega) (by omega)]

theorem srem_eq_secondsOf (lo : 0 ≤ d) (hi : d ≤ 86400) : (sint d).srem 60#32 = sint (secondsOf d) :=
  srem_sint (b := 60) lo (by omega) (by omega) (by omega)

theorem ite_sle_eq_meridiemOf (lo : 0 ≤ d) (hi : d ≤ 86400) :
    (if (43200#32).sle (sint d) then 2#32 else 1#32) = sint (meridiemOf d) := by
  change (if (sint 43200).sle (sint d) then sint 2 else sint 1) = _
  rw [sle_sint (by omega) (by omega) (by omega) (by omega)]
  simp only [decide_eq_true_eq, meridiemOf, apply_ite sint, ge_iff_le]

/-- No operation of DECODE wraps on a valid raw value (40_decode.md R108). -/
theorem wordDecode_eq_decodedT {w : Word} (valid : ValidTicks w.toInt) : wordDecode w = decodedT w.toInt := by
  obtain ⟨lo, hi⟩ := daySeconds_range valid
  obtain ⟨hoursLo, hoursHi⟩ := hours24_range (daySeconds w.toInt)
  simp only [wordDecode, sshiftRight_add_eight valid, srem_sdiv_eq_hours24 lo hi, ite_slt_eq_twelveHour hoursLo hoursHi,
    sdiv_srem_eq_minutesOf lo hi, srem_eq_secondsOf lo hi, ite_sle_eq_meridiemOf lo hi]
  rfl

end WordDecode

/-! ## UPDATE on the decoded record (42_update.md R153) -/

section Update

/-- Whatever the count of seconds, the record made of it shows a clock time (40_decode.md R103 to R105). -/
theorem timeOfSeconds_ranges (dsec : Int) :
    (1 ≤ (timeOfSeconds dsec).hours ∧ (timeOfSeconds dsec).hours ≤ 12) ∧
    (0 ≤ (timeOfSeconds dsec).minutes ∧ (timeOfSeconds dsec).minutes ≤ 59) ∧
    (0 ≤ (timeOfSeconds dsec).seconds ∧ (timeOfSeconds dsec).seconds ≤ 59) ∧
    ((timeOfSeconds dsec).meridiem = 1 ∨ (timeOfSeconds dsec).meridiem = 2) := by
  obtain ⟨lo, hi⟩ := hours24_range dsec
  refine ⟨twelveHour_range lo hi, minutesOf_range dsec, secondsOf_range dsec, ?_⟩
  rcases meridiemOf_cases dsec with ⟨-, pm⟩ | ⟨-, am⟩
  · exact .inr pm
  · exact .inl am

theorem encodeTime_of_valid (rom : Digit → Glyph) {h m s mer : Int} (valid : ValidTime h m s mer) :
    ∃ c : CheckedTime, encodeTime rom h m s mer = .ok (packPattern rom c) ∧
      c.hours.val = h.toNat ∧ c.minutes.val = m.toNat ∧ c.seconds.val = s.toNat ∧ c.meridiem = mer := by
  rcases encodeTime_cases rom h m s mer with ⟨bad, -⟩ | ⟨-, c, -, encoded, fields⟩
  · exact absurd bad (not_timeInvalid_iff.mpr valid)
  · exact ⟨c, encoded, fields⟩

/-- The encoder stage accepts every record that the decoder stage yields (42_update.md R153). -/
theorem validTime_timeOfSeconds (dsec : Int) :
    ValidTime (timeOfSeconds dsec).hours (timeOfSeconds dsec).minutes (timeOfSeconds dsec).seconds
      (timeOfSeconds dsec).meridiem := by
  obtain ⟨hours, minutes, seconds, meridiem⟩ := timeOfSeconds_ranges dsec
  omega

/-- On a valid raw value UPDATE packs the decoded hours, minutes and meridiem (42_update.md R150). -/
theorem updatePattern_of_valid (rom : Digit → Glyph) {raw : Int} (valid : ValidTicks raw) :
    ∃ c : CheckedTime, updatePattern rom raw = .ok (packPattern rom c) ∧
      c.hours.val = (twelveHour (hours24 (daySeconds raw))).toNat ∧
      c.minutes.val = (minutesOf (daySeconds raw)).toNat ∧
      c.meridiem = meridiemOf (daySeconds raw) := by
  obtain ⟨c, encoded, hours, minutes, -, meridiem⟩ := encodeTime_of_valid rom (validTime_timeOfSeconds (daySeconds raw))
  refine ⟨c, ?_, hours, minutes, meridiem⟩
  rw [updatePattern, decodeTime_of_valid (not_ticksInvalid_iff.mpr valid)]
  exact encoded

theorem exec_update_of_valid {s : State} (valid : ValidTicks s.regs.todPort.toInt) :
    ∃ c : CheckedTime, exec .update s = .next (returnOk (writeDispPort (packPattern readGlyph c) s)) ∧
      c.hours.val = (twelveHour (hours24 (daySeconds s.regs.todPort.toInt))).toNat ∧
      c.minutes.val = (minutesOf (daySeconds s.regs.todPort.toInt)).toNat ∧
      c.meridiem = meridiemOf (daySeconds s.regs.todPort.toInt) := by
  obtain ⟨c, pattern, fields⟩ := updatePattern_of_valid readGlyph valid
  exact ⟨c, by rw [exec_eq_next_afterInstr, afterInstr, sampleTod, pattern, conclude_ok], fields⟩

theorem exec_update_of_invalid {s : State} (invalid : ¬ ValidTicks s.regs.todPort.toInt) :
    exec .update s = .next (returnFail .outOfRangeInput s) := by
  rcases updatePattern_cases readGlyph s.regs.todPort.toInt with ⟨-, failed⟩ | ⟨good, -⟩
  · rw [exec_eq_next_afterInstr, afterInstr, sampleTod, failed, conclude_fail]
  · exact absurd (not_ticksInvalid_iff.mp good) invalid

/-- The seconds are checked and not drawn (41_encode.md R131). -/
theorem packPattern_congr (rom : Digit → Glyph) {c₁ c₂ : CheckedTime} (hours : c₁.hours = c₂.hours)
    (minutes : c₁.minutes = c₂.minutes) (meridiem : c₁.meridiem = c₂.meridiem) :
    packPattern rom c₁ = packPattern rom c₂ := by
  simp only [packPattern, hours, minutes, meridiem]

section SameMinute

variable {d₁ d₂ : Int}

theorem hours24_eq_of_same_minute (same : d₁ / 60 = d₂ / 60) : hours24 d₁ = hours24 d₂ := by
  simp only [hours24, Config.secondsPerHour, Config.hoursPerDay]
  omega

theorem minutesOf_eq_of_same_minute (same : d₁ / 60 = d₂ / 60) : minutesOf d₁ = minutesOf d₂ := by
  simp only [minutesOf, Config.secondsPerHour, Config.secondsPerMinute]
  omega

theorem meridiemOf_eq_of_same_minute (same : d₁ / 60 = d₂ / 60) : meridiemOf d₁ = meridiemOf d₂ := by
  have : d₁ ≥ 43200 ↔ d₂ ≥ 43200 := by omega
  simp only [meridiemOf, Config.noon, this]

end SameMinute

end Update

end Sys2Proof.Machine

namespace Sys2Proof.Proofs

open Sys2Proof.Machine Sys2Proof.Safety

/-- Settles O8: the T register as a quotient, and the shifted word. -/
theorem decodeRoundsHalvesUp : Obligations.DecodeRoundsHalvesUp := by
  intro s S r split rlo rhi valid
  have rounded : (decodedT s.regs.todPort.toInt).dsec.toInt = (s.regs.todPort.toInt + 8) / 16 := by
    rw [decodedT_dsec valid, daySeconds_eq_div]
  have shifted : (decodedT s.regs.todPort.toInt).dsec = (s.regs.todPort + 8#32).sshiftRight 4 :=
    (sshiftRight_add_eight valid).symm
  refine ⟨_, exec_decode_of_valid valid, ?_, rounded, shifted,
    shifted.trans (sshiftRight_add_eight_eq_ushiftRight valid)⟩
  calc (decodedT s.regs.todPort.toInt).dsec.toInt
    _ = (16 * S + r + 8) / 16 := by rw [rounded, split]
    _ = if r ≤ 7 then S else S + 1 := by split_ifs <;> omega

/-- Settles O9: the table holds at every hours24, and the decoded count lies in 0..86400. -/
theorem decodeTwelveHourTable : Obligations.DecodeTwelveHourTable := by
  intro s valid
  obtain ⟨dlo, dhi⟩ := daySeconds_range valid
  obtain ⟨hlo, hhi⟩ := hours24_range (daySeconds s.regs.todPort.toInt)
  refine ⟨_, exec_decode_of_valid valid, ?_⟩
  simp only [returnOk_regs, writeT_t, decodedT_dsec valid, decodedT_hr]
  exact ⟨hlo, hhi, getElem?_twelveHour_table hlo hhi, hours24_ne_div_iff dlo dhi⟩

/-- Settles O10: two clauses of the TimeOfDay invariant, and the ranges of the two quotients. -/
theorem decodeMinutesAndSeconds : Obligations.DecodeMinutesAndSeconds := by
  constructor
  · intro s valid
    have consistent := timeConsistent_decodedT valid
    exact ⟨_, exec_decode_of_valid valid, consistent.min, consistent.sec⟩
  · intro dsec _
    obtain ⟨mlo, mhi⟩ := minutesOf_range dsec
    obtain ⟨slo, shi⟩ := secondsOf_range dsec
    exact ⟨rfl, mlo, mhi, rfl, slo, shi⟩

/-- Settles O11: by the two cases of the meridiem, with the boundary count as a quotient of ticks. -/
theorem decodeMeridiemTurnsAtNoon : Obligations.DecodeMeridiemTurnsAtNoon := by
  intro s valid
  refine ⟨_, exec_decode_of_valid valid, ?_⟩
  simp only [returnOk_regs, writeT_t, decodedT_dsec valid, decodedT_mer]
  have rounded := daySeconds_eq_div s.regs.todPort.toInt
  rcases meridiemOf_cases (daySeconds s.regs.todPort.toInt) with ⟨pm, mer⟩ | ⟨am, mer⟩ <;> rw [mer]
  · exact ⟨(if_pos pm).symm, fun early => by omega, fun _ => rfl⟩
  · exact ⟨(if_neg (by omega)).symm, fun _ => rfl, fun late => by omega⟩

/-- Settles O12: by the validity of TOD_PORT. -/
theorem decodeWritesAllFiveOrNone : Obligations.DecodeWritesAllFiveOrNone := by
  intro s
  by_cases valid : ValidTicks s.regs.todPort.toInt
  · exact ⟨_, exec_decode_of_valid valid,
      .inl ⟨rfl, (decodedT_dsec valid).trans (daySeconds_eq_div _), timeConsistent_decodedT valid⟩⟩
  · exact ⟨_, exec_decode_of_invalid valid, .inr ⟨rfl, rfl⟩⟩

/-- Settles O13: word by word, no operation wraps. -/
theorem decodeOnWordsIsExact : Obligations.DecodeOnWordsIsExact := by
  intro s valid
  rw [wordDecode_eq_decodedT valid]
  exact exec_decode_of_valid valid

/-- Settles O16: the ranges of the decoded record, read from the T registers. -/
theorem decodeRanges : Obligations.DecodeRanges := by
  intro s valid
  obtain ⟨hlo, hhi⟩ := hours24_range (daySeconds s.regs.todPort.toInt)
  refine ⟨_, exec_decode_of_valid valid, returnOk_response _, ?_⟩
  simp only [returnOk_regs, writeT_t, decodedT_dsec valid, decodedT_hr, decodedT_min, decodedT_sec, decodedT_mer_toInt]
  refine ⟨twelveHour_range hlo hhi, minutesOf_range _, secondsOf_range _, ?_, ?_, twelveHour_eq_twelve_iff hhi⟩
  · rcases meridiemOf_cases (daySeconds s.regs.todPort.toInt) with ⟨-, pm⟩ | ⟨-, am⟩
    · exact .inr pm
    · exact .inl am
  · rcases meridiemOf_cases (daySeconds s.regs.todPort.toInt) with ⟨late, mer⟩ | ⟨early, mer⟩ <;> omega

/-- Settles O17: the quotient of 16 * d + 8 by 16 is d. -/
theorem decodeRoundTripOfSeconds : Obligations.DecodeRoundTripOfSeconds := by
  intro s d lo hi ticks
  have valid : ValidTicks s.regs.todPort.toInt := by omega
  refine ⟨_, exec_decode_of_valid valid, rfl, ?_⟩
  calc (decodedT s.regs.todPort.toInt).dsec.toInt
    _ = (16 * d + 8) / 16 := by rw [decodedT_dsec valid, daySeconds_eq_div, ticks]
    _ = d := by omega

/-- Settles O18: both states give one sample, and DECODE keeps TOD_PORT. -/
theorem decodeDependsOnTodPortAlone : Obligations.DecodeDependsOnTodPortAlone := by
  intro s₁ s₂ same
  obtain ⟨status, results⟩ := afterInstr_decode_agrees same
  exact ⟨_, _, exec_eq_next_afterInstr _ _, exec_eq_next_afterInstr _ _, status, results,
    by rw [exec_eq_next_afterInstr, afterInstr_decode_decode]⟩

/-- Settles O32: the record's ranges pass the encoder's check, so only the decoder stage can fail. -/
theorem updateEncoderStageNeverFails : Obligations.UpdateEncoderStageNeverFails := by
  constructor
  · intro rom raw d decoded
    obtain rfl : timeOfSeconds (daySeconds raw) = d := by
      simpa [decodeTime_of_valid (not_ticksInvalid_iff.mpr (validTicks_of_decodeTime_ok decoded))] using decoded
    obtain ⟨hours, minutes, seconds, meridiem⟩ := timeOfSeconds_ranges (daySeconds raw)
    obtain ⟨c, encoded, -⟩ := encodeTime_of_valid rom (validTime_timeOfSeconds (daySeconds raw))
    exact ⟨hours, minutes, seconds, meridiem, _, encoded⟩
  · intro s
    by_cases valid : ValidTicks s.regs.todPort.toInt
    · obtain ⟨c, run, -⟩ := exec_update_of_valid valid
      exact ⟨_, run, iff_of_false statusOk_ne_statusFail (not_not.mpr valid)⟩
    · exact ⟨_, exec_update_of_invalid valid, iff_of_true rfl valid⟩

/-- Settles O36: the minute count fixes hours, minutes and meridiem, and the pattern draws nothing else. -/
theorem updateShowsMinutesNotSeconds : Obligations.UpdateShowsMinutesNotSeconds := by
  constructor
  · intro s₁ s₂ valid₁ valid₂ same
    rw [← daySeconds_eq_div, ← daySeconds_eq_div] at same
    obtain ⟨c₁, run₁, hours₁, minutes₁, meridiem₁⟩ := exec_update_of_valid valid₁
    obtain ⟨c₂, run₂, hours₂, minutes₂, meridiem₂⟩ := exec_update_of_valid valid₂
    refine ⟨_, _, run₁, run₂, packPattern_congr readGlyph (Fin.ext ?_) (Fin.ext ?_) ?_⟩
    · rw [hours₁, hours₂, hours24_eq_of_same_minute same]
    · rw [minutes₁, minutes₂, minutesOf_eq_of_same_minute same]
    · rw [meridiem₁, meridiem₂, meridiemOf_eq_of_same_minute same]
  · intro s k lo hi ticks
    have valid : ValidTicks s.regs.todPort.toInt := by omega
    refine ⟨_, exec_decode_of_valid valid, ?_⟩
    calc (decodedT s.regs.todPort.toInt).dsec.toInt
      _ = (16 * (60 * k) - 8 + 8) / 16 := by rw [decodedT_dsec valid, daySeconds_eq_div, ticks]
      _ = 60 * k := by omega

/-- Settles O37: 86400 seconds are packed as hours 12, minutes 0 and PM. -/
theorem updateEndOfDayShowsNoon : Obligations.UpdateEndOfDayShowsNoon := by
  intro s lo hi
  obtain ⟨c, run, hours, minutes, meridiem⟩ := exec_update_of_valid (s := s) ⟨by omega, hi⟩
  rw [daySeconds_end_of_day lo hi] at hours minutes meridiem
  have shown := packPattern_shows c
  rw [hours, minutes, meridiem] at shown
  exact ⟨_, run, rfl, shown⟩

/-- Settles O6: on success the T registers written out, on failure none. -/
theorem decodeOperation : Obligations.DecodeOperation :=
  ⟨decodeCommand_code_decode, fun _ => ⟨fun good => exec_decode_of_valid (not_ticksInvalid_iff.mp good),
    fun bad => exec_decode_of_invalid (not_ticksInvalid_iff.not_right.mp bad)⟩⟩

/-- Settles O7: by the validity of TOD_PORT, which is decided for each of the rule's own examples. -/
theorem decodeStatusIsSignedRangeCheck : Obligations.DecodeStatusIsSignedRangeCheck := by
  refine ⟨fun s => ?_, fun s last => ?_, fun s named => exec_decode_of_invalid ?_⟩
  · by_cases valid : ValidTicks s.regs.todPort.toInt
    · exact ⟨_, exec_decode_of_valid valid, iff_of_true rfl valid,
        iff_of_false statusOk_ne_statusFail (not_not.mpr valid)⟩
    · exact ⟨_, exec_decode_of_invalid valid, iff_of_false statusOk_ne_statusFail.symm valid, iff_of_true rfl valid⟩
  · exact ⟨_, exec_decode_of_valid (by rw [last]; decide), rfl⟩
  · rcases named with raw | raw | raw | raw <;> rw [raw] <;> decide

/-- Settles O14: a row is settled by two closed facts, that its raw value is valid and what it decodes to. -/
theorem decodeCornerCases : Obligations.DecodeCornerCases := by
  constructor
  · intro row listed s holds
    simp only [List.mem_cons, List.not_mem_nil, or_false] at listed
    rcases listed with rfl | rfl | rfl | rfl | rfl | rfl | rfl <;>
      exact exec_decode_of_todPort holds (by decide) (by decide)
  · intro raw listed s holds
    have invalid : ¬ ValidTicks raw.toInt := by
      simp only [List.mem_cons, List.not_mem_nil, or_false] at listed
      rcases listed with rfl | rfl <;> decide
    exact exec_decode_of_invalid (holds ▸ invalid)

/-- Settles O15: the nine values round to 86400 seconds. -/
theorem decodeEndOfDay : Obligations.DecodeEndOfDay := by
  intro s lo hi
  exact exec_decode_of_todPort rfl ⟨by omega, hi⟩ (decodedT_end_of_day lo hi)

end Sys2Proof.Proofs
end

section
/-! ENCODE (41_encode.md): the pattern it writes as a function of hours, minutes and the PM flag alone, and what a pattern's
fields say of it bit by bit and as a number; then the obligations of 41_encode.md. -/

namespace Sys2Proof.Machine

open Sys2Proof.Safety

/-! ## The accepted operands, read as signed and as unsigned (41_encode.md R121) -/

section Operands

theorem toInt_eq_toNat_of_nonneg {w : Word} (nonneg : 0 ≤ w.toInt) : w.toInt = (w.toNat : Int) :=
  BitVec.toInt_eq_toNat_of_lt (BitVec.toInt_pos_iff.mp nonneg)

variable {h m sec mer : Word}

theorem hours_of_validTime (valid : ValidTime h.toInt m.toInt sec.toInt mer.toInt) :
    h.toInt = (h.toNat : Int) ∧ h.toNat ≤ 12 := by
  have same := toInt_eq_toNat_of_nonneg (w := h) (by omega)
  exact ⟨same, by omega⟩

theorem minutes_of_validTime (valid : ValidTime h.toInt m.toInt sec.toInt mer.toInt) :
    m.toInt = (m.toNat : Int) ∧ m.toNat ≤ 59 := by
  have same := toInt_eq_toNat_of_nonneg (w := m) (by omega)
  exact ⟨same, by omega⟩

theorem toInt_eq_one_iff {w : Word} : w.toInt = 1 ↔ w = 1#32 :=
  BitVec.toInt_inj (y := 1#32)

end Operands

/-! ## The pattern that ENCODE writes (41_encode.md R120) -/

/-- The bitwise or of R120. The seconds are no argument and the meridiem reaches it through the PM flag only
(41_encode.md R126, R131). -/
def encodedPattern (h m : Nat) (isPm : Bool) : Word :=
  (Config.glyph (digit (m % 10))).setWidth 32
    ||| ((Config.glyph (digit (m / 10))).setWidth 32 <<< 7)
    ||| ((Config.glyph (digit (h % 10))).setWidth 32 <<< 14)
    ||| (if h / 10 ≠ 0 then (Config.glyph (digit (h / 10))).setWidth 32 <<< 21 else 0#32)
    ||| (if isPm then 1#32 <<< 29 else 1#32 <<< 28)

theorem meridiemFlag_eq (mer : Int) :
    meridiemFlag mer = if !decide (mer = 1) then 1#32 <<< 29 else 1#32 <<< 28 := by
  by_cases am : mer = 1 <;> simp [meridiemFlag, am]

/-- The model packs the bitwise or of R120. -/
theorem packPattern_eq_encodedPattern (c : CheckedTime) :
    packPattern readGlyph c = encodedPattern c.hours.val c.minutes.val (!decide (c.meridiem = 1)) := by
  have drawn : digit (c.hours.val / 10) ≠ 0 ↔ c.hours.val / 10 ≠ 0 := by
    rw [← hoursTens_eq_digit, ne_eq, Fin.ext_iff]
    rfl
  simp only [packPattern, encodedPattern, meridiemFlag_eq, drawn, minutesOnes_eq_digit, minutesTens_eq_digit,
    hoursOnes_eq_digit, hoursTens_eq_digit, placeGlyph, readGlyph]
  split <;> simp

theorem encodedPattern_shows {h m : Nat} (hours : h ≤ 12) (minutes : m ≤ 59) (isPm : Bool) :
    Shows (encodedPattern h m isPm) h m isPm := by
  have shown := packPattern_shows ⟨⟨h, by omega⟩, ⟨m, by omega⟩, 0, if isPm then 2 else 1⟩
  rw [packPattern_eq_encodedPattern] at shown
  cases isPm <;> exact shown

/-! ## What ENCODE ends in (41_encode.md R120) -/

section ExecEncode

variable {s : State} {h m sec mer : Word}

theorem exec_encode_of_valid (valid : ValidTime h.toInt m.toInt sec.toInt mer.toInt) :
    exec (.encode h m sec mer) s =
      .next (returnOk (writeP (encodedPattern h.toNat m.toNat (!decide (mer = 1#32))) s)) := by
  obtain ⟨sameHours, -⟩ := hours_of_validTime valid
  obtain ⟨sameMinutes, -⟩ := minutes_of_validTime valid
  obtain ⟨c, encoded, hours, minutes, -, meridiem⟩ := encodeTime_of_valid readGlyph valid
  rw [exec_eq_next_afterInstr, afterInstr, encoded, conclude_ok, packPattern_eq_encodedPattern, hours, minutes, meridiem,
    sameHours, sameMinutes, Int.toNat_natCast, Int.toNat_natCast]
  simp only [toInt_eq_one_iff]

theorem exec_encode_of_invalid (invalid : ¬ ValidTime h.toInt m.toInt sec.toInt mer.toInt) :
    exec (.encode h m sec mer) s = .next (returnFail .invalidTimeValue s) := by
  rcases encodeTime_cases readGlyph h.toInt m.toInt sec.toInt mer.toInt with ⟨-, failed⟩ | ⟨good, -⟩
  · rw [exec_eq_next_afterInstr, afterInstr, failed, conclude_fail]
  · exact absurd (not_timeInvalid_iff.mp good) invalid

/-- A successful ENCODE leaves in P a pattern that shows its operands. -/
theorem exec_encode_shows (valid : ValidTime h.toInt m.toInt sec.toInt mer.toInt) :
    ∃ t, exec (.encode h m sec mer) s = .next t ∧ Shows t.regs.p h.toNat m.toNat (!decide (mer = 1#32)) := by
  obtain ⟨-, hours⟩ := hours_of_validTime valid
  obtain ⟨-, minutes⟩ := minutes_of_validTime valid
  exact ⟨_, exec_encode_of_valid valid, encodedPattern_shows hours minutes _⟩

end ExecEncode

end Sys2Proof.Machine

namespace Sys2Proof.Safety

/-! ## The fields of a pattern as bits and as numbers (41_encode.md R124, R129, R130) -/

section Fields

variable {pat : Word}

theorem getLsbD_of_extractLsb'_eq {k : Nat} {g : Glyph} (lane : pat.extractLsb' k 7 = g) {j : Nat} (inLane : j < 7) :
    pat.getLsbD (k + j) = g.getLsbD j := by
  rw [← lane, BitVec.getLsbD_extractLsb']
  simp [inLane]

theorem toNat_field_of_extractLsb'_eq {k n : Nat} {g : BitVec n} (field : pat.extractLsb' k n = g) :
    pat.toNat / 2 ^ k % 2 ^ n = g.toNat := by
  rw [← field, BitVec.extractLsb'_toNat, Nat.shiftRight_eq_div_pow]

theorem toNat_bit_of_getLsbD_eq {k : Nat} {b : Bool} (bit : pat.getLsbD k = b) :
    pat.toNat / 2 ^ k % 2 = b.toNat := by
  rw [← bit, ← BitVec.testBit_toNat, Nat.toNat_testBit]

variable {h m : Nat} {isPm : Bool}

/-- The hours-tens lane in terms of its own digit (41_encode.md R124, R125). -/
theorem Shows.hr_tens_digit (shown : Shows pat h m isPm) (hours : h ≤ 12) :
    pat.extractLsb' 21 7 = if h / 10 = 0 then 0#7 else Config.glyph (digit (h / 10)) := by
  rw [shown.hr_tens]
  by_cases ten : 10 ≤ h
  · rw [if_pos ten, show h / 10 = 1 by omega]
    rfl
  · rw [if_neg ten, if_pos (by omega)]

theorem Shows.toNat_lt (shown : Shows pat h m isPm) : pat.toNat < 2 ^ 30 := by
  have reserved : pat.toNat / 2 ^ 30 % 2 ^ 2 = 0 := toNat_field_of_extractLsb'_eq shown.reserved
  have := pat.isLt
  omega

/-- Lanes and flags are disjoint, so the pattern is the sum of its fields (41_encode.md R130). -/
theorem Shows.toNat_eq_sum (shown : Shows pat h m isPm) :
    pat.toNat = (Config.glyph (digit (m % 10))).toNat + (Config.glyph (digit (m / 10))).toNat * 2 ^ 7 +
      (Config.glyph (digit (h % 10))).toNat * 2 ^ 14 + (if 10 ≤ h then (Config.glyph 1).toNat * 2 ^ 21 else 0) +
      (if isPm then 2 ^ 29 else 2 ^ 28) := by
  have bound := shown.toNat_lt
  have minOnes := toNat_field_of_extractLsb'_eq shown.min_ones
  have minTens := toNat_field_of_extractLsb'_eq shown.min_tens
  have hrOnes := toNat_field_of_extractLsb'_eq shown.hr_ones
  have hrTens := toNat_field_of_extractLsb'_eq shown.hr_tens
  have amFlag := toNat_bit_of_getLsbD_eq shown.am_flag
  have pmFlag := toNat_bit_of_getLsbD_eq shown.pm_flag
  have lane : (if 10 ≤ h then (Config.glyph 1).toNat * 2 ^ 21 else 0) = pat.toNat / 2 ^ 21 % 2 ^ 7 * 2 ^ 21 := by
    rw [hrTens]
    split <;> simp
  have flags : (if isPm then 2 ^ 29 else 2 ^ 28) = pat.toNat / 2 ^ 28 % 2 * 2 ^ 28 + pat.toNat / 2 ^ 29 % 2 * 2 ^ 29 := by
    rw [amFlag, pmFlag]
    cases isPm <;> rfl
  rw [lane, flags, ← minOnes, ← minTens, ← hrOnes]
  omega

end Fields

end Sys2Proof.Safety

namespace Sys2Proof.Proofs

open Sys2Proof.Machine Sys2Proof.Safety

/-- Settles O26: a shown pattern is the sum of its fields, and the PM flag is that of every meridiem but 1. -/
theorem encodePatternIsASum : Obligations.EncodePatternIsASum := by
  intro s h m sec mer valid
  obtain ⟨t, run, shown⟩ := exec_encode_shows (s := s) valid
  refine ⟨t, run, ?_⟩
  rw [shown.toNat_eq_sum]
  simp

/-- Settles O19: on success the pattern written out, on failure the status alone. -/
theorem encodeOperation : Obligations.EncodeOperation := by
  refine ⟨decodeCommand_code_encode, fun s h m sec mer => ⟨fun good => ?_, fun bad => ?_⟩⟩
  · have flag : (if !decide (mer = 1#32) then 1#32 <<< 29 else 1#32 <<< 28) =
        if mer.toInt = 1 then 1#32 <<< 28 else 1#32 <<< 29 := by
      simp [toInt_eq_one_iff]
    rw [exec_encode_of_valid (not_timeInvalid_iff.mp good), ← flag]
    rfl
  · exact exec_encode_of_invalid (not_timeInvalid_iff.not_right.mp bad)

/-- Settles O20: the seven comparisons are the negation of the ranges, which decide the status. -/
theorem encodeValidityCheck : Obligations.EncodeValidityCheck := by
  intro s h m sec mer
  by_cases valid : ValidTime h.toInt m.toInt sec.toInt mer.toInt
  · exact ⟨_, exec_encode_of_valid valid, iff_of_false statusOk_ne_statusFail (not_timeInvalid_iff.mpr valid),
      iff_of_true rfl valid⟩
  · exact ⟨_, exec_encode_of_invalid valid, iff_of_true rfl (not_timeInvalid_iff.not_right.mpr valid),
      iff_of_false statusOk_ne_statusFail.symm valid⟩

/-- Settles O21: each lane's bits are those of its field. -/
theorem encodeLanePlacement : Obligations.EncodeLanePlacement := by
  intro s h m sec mer valid
  obtain ⟨-, hours⟩ := hours_of_validTime valid
  obtain ⟨t, run, shown⟩ := exec_encode_shows (s := s) valid
  refine ⟨t, run, fun j inLane => ⟨?_, getLsbD_of_extractLsb'_eq shown.min_tens inLane,
    getLsbD_of_extractLsb'_eq shown.hr_ones inLane, ?_⟩⟩
  · simpa using getLsbD_of_extractLsb'_eq shown.min_ones inLane
  · rw [getLsbD_of_extractLsb'_eq (shown.hr_tens_digit hours) inLane]
    split <;> simp

/-- Settles O22: the four lanes as `Shows` names them, with the digits 0 and 1 where the operand's range fixes them. -/
theorem encodeLeadingZeroSuppression : Obligations.EncodeLeadingZeroSuppression := by
  intro s h m sec mer valid
  obtain ⟨sameHours, -⟩ := hours_of_validTime valid
  obtain ⟨sameMinutes, -⟩ := minutes_of_validTime valid
  obtain ⟨t, run, shown⟩ := exec_encode_shows (s := s) valid
  have suppressed : h.toInt ≤ 9 → t.regs.p.extractLsb' 21 7 = 0#7 := fun below => by
    rw [shown.hr_tens, if_neg (by omega)]
  refine ⟨t, run, suppressed, fun ten => ?_, fun below => ?_, shown.min_tens, shown.min_ones, shown.hr_ones,
    fun midnight => ?_⟩
  · have drawn : t.regs.p.extractLsb' 21 7 = Config.glyph 1 := by
      rw [shown.hr_tens, if_pos (by omega)]
    exact ⟨drawn, drawn ▸ glyph_one_ne_zero⟩
  · rw [shown.min_tens, show m.toNat / 10 = 0 by omega]
    rfl
  · subst midnight
    exact ⟨shown.hr_ones, suppressed (by decide)⟩

/-- Settles O23: the flags as `Shows` names them; a meridiem other than 1 and meridiem 2 give one PM flag. -/
theorem encodeMeridiemFlags : Obligations.EncodeMeridiemFlags := by
  intro s h m sec mer valid
  obtain ⟨-, hours⟩ := hours_of_validTime valid
  obtain ⟨-, minutes⟩ := minutes_of_validTime valid
  have shown := encodedPattern_shows hours minutes (!decide (mer = 1#32))
  refine ⟨_, exec_encode_of_valid valid, by simpa using shown.am_flag, shown.pm_flag, fun notAm => ?_⟩
  obtain ⟨minutesValid, secondsValid, hoursValid, -⟩ := valid
  rw [exec_encode_of_valid ⟨minutesValid, secondsValid, hoursValid, by decide⟩]
  simp [notAm]

/-- Settles O24: the pattern written is made of the operands alone, and a failure writes none. -/
theorem encodeWritesWholePattern : Obligations.EncodeWritesWholePattern := by
  refine fun s h m sec mer => ⟨fun valid => ?_, fun invalid => ⟨_, exec_encode_of_invalid invalid, rfl⟩⟩
  obtain ⟨-, hours⟩ := hours_of_validTime valid
  obtain ⟨-, minutes⟩ := minutes_of_validTime valid
  exact ⟨_, encodedPattern_shows hours minutes _, fun _ => exec_encode_of_valid valid⟩

/-- Settles O25: bits 31:30 are zero, so the sign bit is. -/
theorem encodePatternFitsThirtyBits : Obligations.EncodePatternFitsThirtyBits := by
  intro s h m sec mer valid
  obtain ⟨t, run, shown⟩ := exec_encode_shows (s := s) valid
  have bound := shown.toNat_lt
  exact ⟨t, run, bound, BitVec.toInt_eq_toNat_of_lt (by omega)⟩

/-- Settles O27: the pattern takes hours, minutes and one flag; seconds 60 is out of range. -/
theorem encodeDependsOnHoursMinutesAndAmOnly : Obligations.EncodeDependsOnHoursMinutesAndAmOnly := by
  constructor
  · intro s₁ s₂ h m sec₁ sec₂ mer₁ mer₂ valid₁ valid₂ sameFlag
    refine ⟨_, _, exec_encode_of_valid valid₁, exec_encode_of_valid valid₂, ?_, rfl⟩
    simp only [returnOk_regs, writeP_p, sameFlag]
  · intro s h m mer valid
    have invalid : ¬ ValidTime h.toInt m.toInt (60#32).toInt mer.toInt :=
      fun ⟨_, secondsValid, _⟩ => absurd secondsValid (by decide)
    exact ⟨_, _, exec_encode_of_valid valid, exec_encode_of_invalid invalid, rfl, rfl⟩

/-- Settles O28: each bad operand fails its own range, and 0 lies in the range of the hours. -/
theorem encodeRejectsEachBadOperandAlone : Obligations.EncodeRejectsEachBadOperandAlone := by
  rintro s h m sec mer ⟨minutesValid, secondsValid, -, meridiemValid⟩
  refine ⟨exec_encode_of_invalid ?_, exec_encode_of_invalid ?_, exec_encode_of_invalid ?_,
    _, exec_encode_of_valid ⟨minutesValid, secondsValid, by decide, meridiemValid⟩, rfl⟩
  · exact fun ⟨minutesBad, _⟩ => absurd minutesBad (by decide)
  · exact fun ⟨_, secondsBad, _⟩ => absurd secondsBad (by decide)
  · exact fun ⟨_, _, hoursBad, _⟩ => absurd hoursBad (by decide)

end Sys2Proof.Proofs
end

section
/-! UPDATE and IDLE (42_update.md): the pattern that UPDATE writes as a function of the sample, the same pattern by DECODE
followed by ENCODE, a second UPDATE, and a step with no event; then the obligations of 42_update.md. -/

namespace Sys2Proof.Machine

open Sys2Proof.Safety

/-! ## The pattern of the sampled time (42_update.md R150, R152) -/

/-- The pattern that shows the time `raw` stands for: its 12-hour value, its minutes, and PM from noon on. -/
def sampledPattern (raw : Int) : Word :=
  encodedPattern (twelveHour (hours24 (daySeconds raw))).toNat (minutesOf (daySeconds raw)).toNat
    (decide (daySeconds raw ≥ 43200))

theorem sampledPattern_shows (raw : Int) :
    Shows (sampledPattern raw) (twelveHour (hours24 (daySeconds raw))).toNat (minutesOf (daySeconds raw)).toNat
      (decide (daySeconds raw ≥ 43200)) := by
  obtain ⟨⟨-, hours⟩, ⟨-, minutes⟩, -⟩ := timeOfSeconds_ranges (daySeconds raw)
  exact encodedPattern_shows (Int.toNat_le.mpr hours) (Int.toNat_le.mpr minutes) _

/-- What UPDATE can write is the pattern of a clock time (42_update.md R159). -/
theorem clockPattern_sampledPattern (raw : Int) : ClockPattern (sampledPattern raw) := by
  obtain ⟨⟨hoursLo, hoursHi⟩, ⟨-, minutes⟩, -⟩ := timeOfSeconds_ranges (daySeconds raw)
  exact ⟨_, _, _, (Int.le_toNat (by omega)).mpr hoursLo, Int.toNat_le.mpr hoursHi, Int.toNat_le.mpr minutes,
    sampledPattern_shows raw⟩

theorem not_meridiemOf_eq_am (dsec : Int) : (!decide (meridiemOf dsec = 1)) = decide (dsec ≥ 43200) := by
  rcases meridiemOf_cases dsec with ⟨late, mer⟩ | ⟨early, mer⟩
  · simp [mer, late]
  · simp [mer, early]

/-- UPDATE on a valid TOD_PORT, with the pattern it writes named (42_update.md R150). -/
theorem exec_update_writes_sampledPattern {s : State} (valid : ValidTicks s.regs.todPort.toInt) :
    exec .update s = .next (returnOk (writeDispPort (sampledPattern s.regs.todPort.toInt) s)) := by
  obtain ⟨c, run, hours, minutes, meridiem⟩ := exec_update_of_valid valid
  rw [run, packPattern_eq_encodedPattern, hours, minutes, meridiem, not_meridiemOf_eq_am, sampledPattern]

/-! ## The same pattern by DECODE and then ENCODE of T (42_update.md R158) -/

theorem validTime_decodedT (raw : Int) :
    ValidTime (decodedT raw).hr.toInt (decodedT raw).min.toInt (decodedT raw).sec.toInt (decodedT raw).mer.toInt := by
  rw [decodedT_hr, decodedT_min, decodedT_sec, decodedT_mer_toInt]
  exact validTime_timeOfSeconds (daySeconds raw)

theorem encodedPattern_decodedT (raw : Int) :
    encodedPattern (decodedT raw).hr.toNat (decodedT raw).min.toNat (!decide ((decodedT raw).mer = 1#32)) =
      sampledPattern raw := by
  obtain ⟨sameHours, -⟩ := hours_of_validTime (validTime_decodedT raw)
  obtain ⟨sameMinutes, -⟩ := minutes_of_validTime (validTime_decodedT raw)
  rw [decodedT_hr] at sameHours
  rw [decodedT_min] at sameMinutes
  simp only [sampledPattern, sameHours, sameMinutes, Int.toNat_natCast, ← not_meridiemOf_eq_am, ← decodedT_mer_toInt,
    toInt_eq_one_iff]

/-- ENCODE of what DECODE leaves in T writes to P the pattern that UPDATE writes to DISP_PORT. -/
theorem exec_encode_decodedT (raw : Int) (s : State) :
    exec (.encode (decodedT raw).hr (decodedT raw).min (decodedT raw).sec (decodedT raw).mer) s =
      .next (returnOk (writeP (sampledPattern raw) s)) := by
  rw [exec_encode_of_valid (validTime_decodedT raw), encodedPattern_decodedT]

/-! ## A second UPDATE, and a step with no event -/

/-- A second UPDATE of the same TOD_PORT changes nothing (42_update.md R156). -/
theorem afterInstr_update_update (s : State) :
    afterInstr .update (afterInstr .update s) = afterInstr .update s := by
  have sameSample : sampleTod (afterInstr .update s) = sampleTod s :=
    sampleTod_eq_of_todPort_eq (afterInstr_todPort .update s)
  calc afterInstr .update (afterInstr .update s)
    _ = conclude (updatePattern readGlyph (sampleTod s)) writeDispPort (afterInstr .update s) := by
      rw [← sameSample, afterInstr]
    _ = afterInstr .update s := conclude_conclude writeDispPort_respond (fun _ => rfl) _

theorem step_of_no_event {s : State} (noneAhead : s.events = []) : step s = .next (noEvent s) := by
  simp [step, noneAhead]

end Sys2Proof.Machine

namespace Sys2Proof.Proofs

open Sys2Proof.Machine Sys2Proof.Safety

/-- Settles O29: the fields of the sampled time's pattern as `Shows` names them. -/
theorem updateComposedResult : Obligations.UpdateComposedResult := by
  intro s valid dsec h24 H M
  obtain ⟨⟨(positive : 1 ≤ H), -⟩, -⟩ := timeOfSeconds_ranges dsec
  have shown : Shows (sampledPattern s.regs.todPort.toInt) H.toNat M.toNat (decide (dsec ≥ 43200)) :=
    sampledPattern_shows _
  have tens : 10 ≤ H.toNat ↔ H ≥ 10 := by omega
  refine ⟨by omega, _, exec_update_writes_sampledPattern valid, shown.min_ones, shown.min_tens, shown.hr_ones, ?_, ?_,
    shown.pm_flag, shown.reserved⟩
  · simpa only [tens] using shown.hr_tens
  · simp only [shown.am_flag, ge_iff_le, ← decide_not, not_le]

/-- Settles O31: by the validity of TOD_PORT. -/
theorem updateAllOrNothing : Obligations.UpdateAllOrNothing := by
  intro s
  by_cases valid : ValidTicks s.regs.todPort.toInt
  · exact .inl ⟨valid, _, clockPattern_sampledPattern _, sampledPattern_shows _, exec_update_writes_sampledPattern valid⟩
  · exact .inr ⟨valid, exec_update_of_invalid valid⟩

/-- Settles O34: both states give one sample, and UPDATE keeps TOD_PORT. -/
theorem updateIsIdempotent : Obligations.UpdateIsIdempotent := by
  intro s₁ s₂ same
  obtain ⟨status, pattern⟩ := afterInstr_update_agrees same
  exact ⟨_, _, exec_eq_next_afterInstr _ _, exec_eq_next_afterInstr _ _, status, pattern,
    by rw [exec_eq_next_afterInstr, afterInstr_update_update]⟩

/-- Settles O35: on a valid TOD_PORT both routes write the sampled time's pattern, on any other both fail. -/
theorem updateEqualsDecodeThenEncode : Obligations.UpdateEqualsDecodeThenEncode := by
  intro s
  by_cases valid : ValidTicks s.regs.todPort.toInt
  · exact ⟨_, _, exec_update_writes_sampledPattern valid, exec_decode_of_valid valid, Iff.rfl,
      fun _ => ⟨_, exec_encode_decodedT _ _, rfl, rfl, rfl, rfl, rfl, rfl⟩⟩
  · exact ⟨_, _, exec_update_of_invalid valid, exec_decode_of_invalid valid, Iff.rfl,
      fun ok => absurd ok statusOk_ne_statusFail.symm⟩

/-- Settles O5: IDLE is its code's operation, and its end sets no field but the response. -/
theorem idleOperation : Obligations.IdleOperation :=
  ⟨decodeCommand_code_idle, fun s => exec_eq_next_afterInstr .idle s⟩

/-- Settles O33: the frames of T and P, which are DECODE's and ENCODE's alone. -/
theorem updateKeepsTAndP : Obligations.UpdateKeepsTAndP := by
  intro s
  refine ⟨_, exec_eq_next_afterInstr .update s, afterInstr_t (by decide) s, afterInstr_p ?_ s⟩
  rintro ⟨h, m, sec, mer, updateIsEncode⟩
  cases updateIsEncode

/-- Settles O45: the step of the empty list of events, written out field by field. -/
theorem noEventNoChange : Obligations.NoEventNoChange :=
  fun _ noneAhead => step_of_no_event noneAhead

end Sys2Proof.Proofs
end

section
/-! Exceptions (60_exceptions.md): what a status-1 answer says of the state an operation ends in (R174), and that every step
is answered with a next state (R186); then the obligations of 60_exceptions.md. -/

namespace Sys2Proof.Machine

/-! ## What a failure leaves (60_exceptions.md R174) -/

section Failure

variable {s : State}

/-- Status 1 is the mark of the branch without writes: a successful end answers status 0 (00_scope.md R15). -/
theorem conclude_eq_of_status_fail {α : Type} {r : OpResult α} {write : α → State → State}
    (failed : (conclude r write s).response = .status 1#1) : conclude r write s = respond (.status 1#1) s := by
  rcases conclude_cases r write s with ⟨v, -, succeeds⟩ | ⟨kind, -, fails⟩
  · rw [succeeds, returnOk_response] at failed
    exact absurd failed statusOk_ne_statusFail
  · exact fails

/-- A failing operation changes the status alone; IDLE, which has none, never fails (60_exceptions.md R174). -/
theorem afterInstr_eq_of_status_fail {i : Instr} (failed : (afterInstr i s).response = .status 1#1) :
    afterInstr i s = respond (.status 1#1) s := by
  cases i with
  | idle => cases failed
  | decode => exact conclude_eq_of_status_fail failed
  | encode => exact conclude_eq_of_status_fail failed
  | update => exact conclude_eq_of_status_fail failed

end Failure

/-! ## Every step has an outcome (60_exceptions.md R186) -/

theorem step_of_reset {s : State} {values : Registers} {rest : List Event} (next : s.events = .reset values :: rest) :
    step s = .next (resetTo values (leaveEvents rest s)) := by
  simp [step, next]

theorem exists_exec_eq_next (i : Instr) (s : State) : ∃ t, exec i s = .next t :=
  ⟨_, exec_eq_next_afterInstr i s⟩

theorem exists_step_eq_next (s : State) : ∃ t, step s = .next t := by
  cases next : s.events with
  | nil => exact ⟨_, step_of_no_event next⟩
  | cons event rest =>
    cases event with
    | command c => exact step_of_command next ▸ exists_exec_eq_next _ _
    | extWrite v => exact ⟨_, step_of_extWrite next⟩
    | hostRead r => exact ⟨_, step_of_hostRead next⟩
    | driverRead => exact ⟨_, step_of_driverRead next⟩
    | reset values => exact ⟨_, step_of_reset next⟩

end Sys2Proof.Machine

namespace Sys2Proof.Proofs

open Sys2Proof.Machine

/-- Settles O39: the state after a failure is the state before it but for the status, and no state blocks an operation. -/
theorem failureWritesNothing : Obligations.FailureWritesNothing := by
  intro i s t run failed
  obtain rfl := eq_afterInstr_of_exec run
  rw [afterInstr_eq_of_status_fail failed]
  exact ⟨respond_regs s _, respond_events s _, fun j => exists_exec_eq_next j _⟩

/-- Settles O30: out of the range, DECODE fails and UPDATE stops at its decoder stage. -/
theorem outOfRangeInputWritesNothing : Obligations.OutOfRangeInputWritesNothing := by
  intro s outOfRange
  have invalid := not_ticksInvalid_iff.not_right.mp outOfRange
  exact ⟨exec_decode_of_invalid invalid, exec_update_of_invalid invalid⟩

/-- Settles O38: an operation ends in `afterInstr`, and a step in the state of the event it takes. -/
theorem coreIsNeverStuck : Obligations.CoreIsNeverStuck :=
  ⟨exists_exec_eq_next, exists_step_eq_next⟩

end Sys2Proof.Proofs
end

section
/-! Reset (70_reset_and_hazards.md): a step uses up one event, and without a RESET it leaves each of T, P and DISP_PORT alone
or makes it meaningful (R201); then the obligations of 70_reset_and_hazards.md. -/

namespace Sys2Proof.Machine

open Sys2Proof.Safety

section BetweenResets

variable {s t : State}

/-- Each step takes the first event and no step adds one (20_memory.md R57). -/
theorem step_events (run : step s = .next t) : t.events = s.events.tail := by
  rcases step_cases run with ⟨next, rfl⟩ | ⟨c, rest, next, rfl⟩ | ⟨v, rest, next, rfl⟩ | ⟨r, rest, next, rfl⟩ |
    ⟨rest, next, rfl⟩ | ⟨values, rest, next, rfl⟩ <;>
  simp [next]

theorem noResetAhead_of_step (noReset : NoResetAhead s) (run : step s = .next t) : NoResetAhead t := by
  intro values ahead
  rw [step_events run] at ahead
  exact noReset values (List.mem_of_mem_tail ahead)

theorem not_reset_next (noReset : NoResetAhead s) : ¬ ∃ values rest, s.events = .reset values :: rest := by
  rintro ⟨values, rest, next⟩
  exact noReset values (next ▸ List.mem_cons_self)

/-- The state after a command's step is the one its instruction ends in. -/
theorem eq_of_step_of_command {u : State} {c : Command} {i : Instr} {rest : List Event}
    (next : s.events = .command c :: rest) (decodes : decodeCommand c = i) (run : step s = .next t)
    (ends : exec i (leaveEvents rest s) = .next u) : t = u := by
  rw [step_of_command next, decodes, ends] at run
  exact (Host.Outcome.next.inj run).symm

/-- Only a successful DECODE changes T, and it leaves the TimeOfDay invariant (70_reset_and_hazards.md R201 (d)). -/
theorem step_t_kept_or_consistent (noReset : NoResetAhead s) (run : step s = .next t) :
    t.regs.t = s.regs.t ∨ TimeConsistent t.regs.t := by
  refine or_iff_not_imp_left.mpr fun changed => ?_
  rcases step_changes_t run changed with reset | ⟨c, rest, next, isDecode, valid⟩
  · exact absurd reset (not_reset_next noReset)
  · obtain rfl := eq_of_step_of_command next isDecode run (exec_decode_of_valid valid)
    exact timeConsistent_decodedT valid

/-- Only a successful ENCODE changes P, and it leaves an encoder pattern (70_reset_and_hazards.md R201 (d)). -/
theorem step_p_kept_or_encoderPattern (noReset : NoResetAhead s) (run : step s = .next t) :
    t.regs.p = s.regs.p ∨ EncoderPattern t.regs.p := by
  refine or_iff_not_imp_left.mpr fun changed => ?_
  rcases step_changes_p run changed with reset | ⟨c, rest, h, m, sec, mer, next, isEncode, valid⟩
  · exact absurd reset (not_reset_next noReset)
  · obtain ⟨u, ends, shown⟩ := exec_encode_shows (s := leaveEvents rest s) valid
    obtain rfl := eq_of_step_of_command next isEncode run ends
    exact ⟨_, _, _, (hours_of_validTime valid).2, (minutes_of_validTime valid).2, shown⟩

/-- Only a successful UPDATE changes DISP_PORT, and it leaves a clock time's pattern (70_reset_and_hazards.md R201 (c)). -/
theorem step_dispPort_kept_or_clockPattern (noReset : NoResetAhead s) (run : step s = .next t) :
    t.regs.dispPort = s.regs.dispPort ∨ ClockPattern t.regs.dispPort := by
  refine or_iff_not_imp_left.mpr fun changed => ?_
  rcases step_changes_dispPort run changed with reset | ⟨c, rest, next, isUpdate, valid⟩
  · exact absurd reset (not_reset_next noReset)
  · obtain rfl := eq_of_step_of_command next isUpdate run (exec_update_writes_sampledPattern valid)
    exact clockPattern_sampledPattern _

/-- A value that a step keeps or makes meaningful stays as at reset or meaningful. -/
theorem asAtReset_or_meaningful {α : Type} {atReset before after : α} {meaningful : α → Prop}
    (held : before = atReset ∨ meaningful before) (stepped : after = before ∨ meaningful after) :
    after = atReset ∨ meaningful after := by
  rcases stepped with rfl | good
  · exact held
  · exact .inr good

end BetweenResets

end Sys2Proof.Machine

namespace Sys2Proof.Proofs

open Sys2Proof.Machine Sys2Proof.Safety

/-- Settles O48: the events lose their head, and each register is kept or written by its own successful operation. -/
theorem stepKeepsMeaningfulSinceReset : Obligations.StepKeepsMeaningfulSinceReset := by
  rintro atReset s t ⟨noReset, time, pattern, display⟩ run
  exact {
    no_reset := noResetAhead_of_step noReset run
    time := asAtReset_or_meaningful time (step_t_kept_or_consistent noReset run)
    pattern := asAtReset_or_meaningful pattern (step_p_kept_or_encoderPattern noReset run)
    display := asAtReset_or_meaningful display (step_dispPort_kept_or_clockPattern noReset run) }

/-- Settles O44: the event's step, and then that of the command, which no state blocks. -/
theorem resetLeavesAnyValues : Obligations.ResetLeavesAnyValues :=
  fun s values rest next =>
    ⟨resetTo values (leaveEvents rest s), step_of_reset next, resetTo_regs _ values, resetTo_response _ values,
      (resetTo_events _ values).trans (leaveEvents_events s rest), fun _ _ _ => exists_step_eq_next _⟩

end Sys2Proof.Proofs
end
